-- ==== Sys2Proof/Word.lean ====
section
/-! DEFINITION. The bit-vector types of the ports and fields (30_encoding.md R62, R66; 00_scope.md R12). Every value is
unsigned; bit 0 is the least significant bit. -/

namespace Sys2Proof

/-- A byte of the stream, 0..255 (R12). -/
abbrev Byte := BitVec 8

/-- A command word or a response word (R62, R66). -/
abbrev Word := BitVec 32

/-- The ARG field of a command word, bits [15:0] (R62, R65). -/
abbrev Arg := BitVec 16

/-- The DATA field of a response word, bits [27:0] (R66). -/
abbrev Data := BitVec 28

end Sys2Proof
end

