-- ==== Sys2Proof/Config.lean ====
section
/-! DEFINITION. What is fixed when the hardware is built (00_scope.md R8): the parameters and their defaults, the fixed sizes of
the wire format, and the one OPEN value the model reads, POS_TYPE. LATENCY is not here: a model has no time (R210, entry 3). -/

namespace Sys2Proof

/-- The build-time parameters of R8 that the model reads. No command writes them (R20, R164). -/
structure Params where
  /-- `CAP`, the ring-buffer capacity in bytes, a 16-bit natural (R8, R28). -/
  cap : BitVec 16
  /-- `STX`, the start-marker byte. -/
  stx : Byte
  /-- `ETX`, the end-marker byte; it need not differ from `stx` (R10). -/
  etx : Byte
  /-- `POS_TYPE`, read back in CONST and compared with nothing (R11). -/
  posType : Byte
deriving DecidableEq, Repr

/-- `CAP` as the number that the length comparisons use (R13: unbounded naturals). -/
abbrev Params.capacity (p : Params) : Nat := p.cap.toNat

/-- R8's legal range of `CAP`, 6..65535; the upper bound is the width of `cap`. The step does not check it (entry 14). -/
abbrev Params.legal (p : Params) : Prop := 6 ≤ p.capacity

/-- `POS_TYPE` of the hardware that `State.reset` describes. OPEN (D9): no value is known, so it has no body and no proof
can see one (entry 2). -/
opaque Config.posType : Byte

/-- The defaults of R8 (`CAP` 1024, `STX` 0x02, `ETX` 0x03) with the OPEN `POS_TYPE`. -/
def Config.params : Params :=
  { cap := 1024#16, stx := 0x02#8, etx := 0x03#8, posType := Config.posType }

/-- `HEADER_LEN`: STX, STATUS, PACKET_TYPE, LENGTH (R8; 90_conflicts.md C8). -/
abbrev Config.headerLen : Nat := 4

/-- `CSUM_LEN` (R8). -/
abbrev Config.csumLen : Nat := 1

/-- `TRAILER_LEN`, the end marker (R8). -/
abbrev Config.trailerLen : Nat := 1

end Sys2Proof
end

