-- ==== Sys2Proof/Syntax.lean ====
section
/-! DEFINITION. The commands of the SPF: one constructor per row of spec/opcode_table.json (30_encoding.md R63). Operands carry
the width of their field (R65). -/

namespace Sys2Proof

/-- A legal command word's content. -/
inductive Instr
  /-- APPEND, OP 0x1: add the byte `b` to the window (R100). -/
  | append (b : Byte)
  /-- SCAN, OP 0x2: locate, check and extract at most one frame (R120). -/
  | scan
  /-- PEEK, OP 0x3: read the window byte at offset `off` (R101). -/
  | peek (off : Arg)
  /-- CONSUME, OP 0x4: discard `n` bytes from the front (R102). -/
  | consume (n : Arg)
  /-- READF, OP 0x5: read byte `i` of the held frame (R160). -/
  | readf (i : Arg)
  /-- RDREG, OP 0x6: read register `r` (R161). -/
  | rdreg (r : Arg)
  /-- WRCTRL, OP 0x7: set CTRL.RETAIN_LAST to `v` (R163). -/
  | wrctrl (v : Bool)
deriving DecidableEq, Repr

end Sys2Proof
end

