-- ==== Sys2Proof/WellFormed.lean ====
section
/-! DEFINITION. The checks that make a command well formed: an opcode that is a row of the opcode map and an operand in its
field's range (30_encoding.md R63, R64, R74). A constructor of Instr already carries its operand's width, so the checks are
stated on the opcode and the operand as numbers, before any truncation. -/

namespace Sys2Proof

/-- The opcodes of R63; 0x0 and 0x8..0xF are reserved (R64). -/
def opcodeAssigned (op : Nat) : Bool := decide (1 ≤ op) && decide (op ≤ 7)

/-- The number of operand values of each opcode (R74): APPEND takes 0..255, SCAN none, WRCTRL 0 and 1, the others 16 bits. -/
def operandBound (op : Nat) : Nat :=
  match op with
  | 1 => 256
  | 2 => 1
  | 3 => 65536
  | 4 => 65536
  | 5 => 65536
  | 6 => 65536
  | 7 => 2
  | _ => 0

/-- R74: an operand out of its field's range is an error, never truncated. -/
def operandInRange (op operand : Nat) : Bool := decide (operand < operandBound op)

/-- An opcode and an operand that stand for a legal command word. -/
def commandWellFormed (op operand : Nat) : Bool := opcodeAssigned op && operandInRange op operand

/-- The OP field of a command (R63). -/
def Instr.opcode : Instr → BitVec 4
  | .append _ => 0x1#4
  | .scan => 0x2#4
  | .peek _ => 0x3#4
  | .consume _ => 0x4#4
  | .readf _ => 0x5#4
  | .rdreg _ => 0x6#4
  | .wrctrl _ => 0x7#4

/-- The operand of a command as a number (R65: unsigned, never scaled); SCAN's ARG is 0. -/
def Instr.operand : Instr → Nat
  | .append b => b.toNat
  | .scan => 0
  | .peek off => off.toNat
  | .consume n => n.toNat
  | .readf i => i.toNat
  | .rdreg r => r.toNat
  | .wrctrl v => v.toNat

/-- A well-formed instruction. The operand widths of Instr make every instruction so (Laws/PerInstr.lean). -/
def Instr.wellFormed (i : Instr) : Bool := commandWellFormed i.opcode.toNat i.operand

end Sys2Proof
end

