-- ==== Sys2Proof/Decode.lean ====
section
/-! DEFINITION. Decoding a command word, total and refusing by name, the encoder, and the opcode map as data
(30_encoding.md R62..R65; opcode_table.json). A word has no byte order: fields are given by bit numbers (20_memory.md R43). -/

namespace Sys2Proof

/-- Why a word is no command, in the priority order of R185. All three answer ILLEGAL_CMD (R183). -/
inductive DecodeError
  /-- OP is 0x0 or 0x8..0xF (R64). -/
  | reservedOpcode
  /-- RSV, bits [27:16], is nonzero (R64). -/
  | nonzeroRsv
  /-- Reserved ARG bits of APPEND, SCAN or WRCTRL are nonzero (R64). -/
  | nonzeroReservedArg
deriving DecidableEq, Repr

/-- OP, bits [31:28] (R62). -/
def opField (w : Word) : BitVec 4 := w.extractLsb' 28 4

/-- RSV, bits [27:16] (R62). -/
def rsvField (w : Word) : BitVec 12 := w.extractLsb' 16 12

/-- ARG, bits [15:0] (R62). -/
def argField (w : Word) : Arg := w.extractLsb' 0 16

/-- The command that an opcode and an ARG name, with the ARG bits the opcode reserves checked (R63, R64, R65). -/
def decodeArg (op : Nat) (a : Arg) : Except DecodeError Instr :=
  match op with
  | 1 => if a.extractLsb' 8 8 = 0#8 then .ok (.append (a.extractLsb' 0 8)) else .error .nonzeroReservedArg
  | 2 => if a = 0#16 then .ok .scan else .error .nonzeroReservedArg
  | 3 => .ok (.peek a)
  | 4 => .ok (.consume a)
  | 5 => .ok (.readf a)
  | 6 => .ok (.rdreg a)
  | 7 => if a.extractLsb' 1 15 = 0#15 then .ok (.wrctrl (a.getLsbD 0)) else .error .nonzeroReservedArg
  | _ => .error .reservedOpcode

/-- Decode a command word: OP, then RSV, then the reserved ARG bits (R62, R185). -/
def decode (w : Word) : Except DecodeError Instr :=
  if opcodeAssigned (opField w).toNat then
    if rsvField w = 0#12 then decodeArg (opField w).toNat (argField w) else .error .nonzeroRsv
  else .error .reservedOpcode

/-- The ARG field of a command (R63). -/
def Instr.arg : Instr → Arg
  | .append b => 0#8 ++ b
  | .scan => 0#16
  | .peek off => off
  | .consume n => n
  | .readf i => i
  | .rdreg r => r
  | .wrctrl v => 0#15 ++ BitVec.ofBool v

/-- A command word laid out as R62 says: OP, RSV = 0, ARG. -/
def wordOf (op : BitVec 4) (a : Arg) : Word := op ++ 0#12 ++ a

/-- The word of a command (R63). -/
def encode (i : Instr) : Word := wordOf i.opcode i.arg

/-- One row of the opcode map: a word is the command exactly when its bits under `mask` equal `pattern` (R63). -/
structure OpcodeRow where
  /-- The mnemonic as opcode_table.json spells it. -/
  mnemonic : String
  /-- The column "match". -/
  pattern : Word
  /-- The column "mask". -/
  mask : Word
deriving DecidableEq, Repr

/-- The seven rows of R63, in the table's order. -/
def opcodeTable : List OpcodeRow :=
  [ { mnemonic := "APPEND", pattern := 0x10000000#32, mask := 0xFFFFFF00#32 },
    { mnemonic := "SCAN", pattern := 0x20000000#32, mask := 0xFFFFFFFF#32 },
    { mnemonic := "PEEK", pattern := 0x30000000#32, mask := 0xFFFF0000#32 },
    { mnemonic := "CONSUME", pattern := 0x40000000#32, mask := 0xFFFF0000#32 },
    { mnemonic := "READF", pattern := 0x50000000#32, mask := 0xFFFF0000#32 },
    { mnemonic := "RDREG", pattern := 0x60000000#32, mask := 0xFFFF0000#32 },
    { mnemonic := "WRCTRL", pattern := 0x70000000#32, mask := 0xFFFFFFFE#32 } ]

/-- The test of R63: `w & mask = match`. -/
abbrev OpcodeRow.holds (row : OpcodeRow) (w : Word) : Prop := w &&& row.mask = row.pattern

/-- The mnemonic of a command, as opcode_table.json spells it. -/
def Instr.mnemonic : Instr → String
  | .append _ => "APPEND"
  | .scan => "SCAN"
  | .peek _ => "PEEK"
  | .consume _ => "CONSUME"
  | .readf _ => "READF"
  | .rdreg _ => "RDREG"
  | .wrctrl _ => "WRCTRL"

/-- The command word made of the `nbits` lowest bits of `w`, the bits above them 0. Commands are 32 bits long and there is no
other length (R62), so no more than 32 bits are read (entry 16). -/
def tableWord (nbits w : Nat) : Word := BitVec.ofNat 32 (w % 2 ^ nbits)

/-- What the decoder reads from an opcode-table word of `nbits` bits. -/
def decodeTableWord (nbits w : Nat) : Option Instr :=
  match decode (tableWord nbits w) with
  | .ok i => some i
  | .error _ => none

end Sys2Proof
end

