-- ==== Sys2Proof/Machine/State.lean ====
section
/-! DEFINITION. The state of the SPF (10_state.md R20, R33, R35, R37), the reasons a step could stop, and the reset state. -/

namespace Sys2Proof.Machine

/-- The window `W`: the bytes the ring buffer holds, oldest first (10_state.md R21). It is the SPF's only memory; an offset
is a position in the list and nothing lies beyond its end (R34, entry 6). -/
abbrev Window := List Byte

/-- The form every window keeps: never more than `CAP` bytes (R21). Equal windows are equal data. -/
abbrev Memory.wf (p : Params) (W : Window) : Prop := W.length ≤ p.capacity

/-- The machine. The first eight fields are the spec's state, `params` its build-time parameters, and the last four the
controller's side of the ports (entry 4, entry 5). -/
structure State where
  /-- The window `W` (R21). -/
  window : Window
  /-- RESYNC_CNT, register 2 (R29). -/
  resyncCnt : BitVec 16
  /-- CTRL.RETAIN_LAST, bit 0 of register 3 (R26). -/
  retainLast : Bool
  /-- FRAME_BUF: `some F` exactly when FRAME_VALID = 1 and FRAME_BUF = F (R24, R32, R37). -/
  frame : Option (List Byte)
  /-- The number of commands accepted since reset, the index of the next one (R23). -/
  seqIndex : Nat
  /-- The accepted command whose response has not been delivered (R33, R61). -/
  inFlight : Option Word
  /-- The response offered on `rsp_data` (R33, R61). -/
  rsp : Option Word
  /-- The build-time parameters (R8); no step changes them (R20, R164, entry 1). -/
  params : Params
  /-- The input `rst` at the next edge (R60, R200). -/
  rst : Bool
  /-- The words the controller presents on `cmd_valid`/`cmd_data`, oldest first (R20, R60). -/
  cmdIn : List Word
  /-- The input `rsp_ready` at the next edge (R60, R61). -/
  rspReady : Bool
  /-- The response words delivered since the last reset, oldest first (R60, R77). -/
  rspOut : List Word
deriving DecidableEq, Repr

/-- The reasons the machine stops with a fault. None: the SPF has no fault state (93_implementation_defined.md, "`fault`: not
used"), and every outcome is a result code (60_exceptions.md R184). Nothing raises it: safe. -/
inductive Fault
deriving DecidableEq, Repr

/-- The reasons a step is refused. -/
inductive Refusal
  /-- An instruction without a meaning, by its mnemonic. Raised by no arm of `exec`, since all seven commands have their
  meaning: safe. -/
  | notModelled (mnemonic : String)
deriving DecidableEq, Repr

/-- The reset state for given parameters (10_state.md R35): empty window, count 0, discard-all policy, no frame, index 0, no
command in flight, no response pending. The controller's side is idle: no reset asserted, no command offered, ready for a
response, nothing delivered (entry 4, entry 5: the model's own values). -/
def State.resetWith (p : Params) : State :=
  { window := [], resyncCnt := 0#16, retainLast := false, frame := none, seqIndex := 0,
    inFlight := none, rsp := none, params := p,
    rst := false, cmdIn := [], rspReady := true, rspOut := [] }

/-- The machine right after reset, with the default parameters of R8. -/
def State.reset : State := State.resetWith Config.params

/-- The output `cmd_ready`: high when no command is in flight, and low while `rst` is high (R61, R200). After reset it is high from
the first edge with `rst` low on, the earliest that R203 allows: the model's choice (entry 17). -/
def State.cmdReady (s : State) : Bool := !s.rst && s.inFlight.isNone

/-- The output `rsp_valid`: high while a response is pending, and low while `rst` is high (R61, R200). -/
def State.rspValid (s : State) : Bool := !s.rst && s.rsp.isSome

end Sys2Proof.Machine
end

