-- ==== Sys2Proof/Machine/Ops.lean ====
section
/-! DEFINITION. The named operations every meaning is written with: the window primitives of 20_memory.md R44..R46, the response
and the error of 30_encoding.md R66 and 60_exceptions.md R184, and the transfers at the ports (R61, R200). An error is the only
kind of exception the SPF has; there is no trap entry, nothing is saved and there is no return from it (R184). -/

namespace Sys2Proof.Machine

/-- `first_index(S, v)`: the least index with `S[i] = v` (00_scope.md R13). -/
def firstIndex (v : Byte) : List Byte → Option Nat
  | [] => none
  | b :: S => if b = v then some 0 else (firstIndex v S).map (· + 1)

/-- WinAppend on the window alone: append at the newest end, evicting the oldest byte when full (R44). -/
def windowPush (cap : Nat) (b : Byte) (W : Window) : Window :=
  if W.length < cap then W ++ [b] else W.drop 1 ++ [b]

/-- `MemRead(off, n)`: the bytes `W[off..<off+n]`, defined only when they all exist (R46). -/
def memRead (off n : Nat) (W : Window) : Option (List Byte) :=
  if off + n ≤ W.length then some ((W.drop off).take n) else none

/-- WinAppend (R44). It never fails. -/
def State.winAppend (b : Byte) (s : State) : State :=
  { s with window := windowPush s.params.capacity b s.window }

/-- WinDrop (R45): discard the `n` oldest bytes. Every caller has checked `n ≤ |W|`. -/
def State.winDrop (n : Nat) (s : State) : State := { s with window := s.window.drop n }

/-- One resynchronisation event counted, modulo 65536 (R29). -/
def State.countResync (s : State) : State := { s with resyncCnt := s.resyncCnt + 1#16 }

/-- FRAME_VALID <- 0; the buffer is then absent (R32, R121). -/
def State.clearFrame (s : State) : State := { s with frame := none }

/-- FRAME_BUF <- F and FRAME_VALID <- 1 (R130). -/
def State.holdFrame (F : List Byte) (s : State) : State := { s with frame := some F }

/-- CTRL.RETAIN_LAST <- v (R163). -/
def State.setRetain (v : Bool) (s : State) : State := { s with retainLast := v }

/-- The result codes of R67. -/
inductive ResultCode
  | ok
  | outOfRange
  | illegalCmd
  | noFrameYet
  | frameOk
  | checksumMismatch
deriving DecidableEq, Repr

/-- The number of a result code (R67); 0x6..0xF are never produced. -/
def rcCode : ResultCode → BitVec 4
  | .ok => 0x0#4
  | .outOfRange => 0x1#4
  | .illegalCmd => 0x2#4
  | .noFrameYet => 0x3#4
  | .frameOk => 0x4#4
  | .checksumMismatch => 0x5#4

/-- The response word: RC in [31:28], DATA in [27:0] (R66). -/
def rspWord (rc : ResultCode) (data : Data) : Word := rcCode rc ++ data

/-- RC, bits [31:28] of a response word (R66). -/
def rcField (r : Word) : BitVec 4 := r.extractLsb' 28 4

/-- DATA, bits [27:0] of a response word (R66). -/
def dataField (r : Word) : Data := r.extractLsb' 0 28

/-- `respond(rc, data)`: offer the command's one response word (R14, R66). -/
def State.respond (rc : ResultCode) (data : Data) (s : State) : State :=
  { s with rsp := some (rspWord rc data) }

/-- `raise E(info)`: respond with DATA = 0 and change nothing else (R14, R184). -/
def State.raiseError (e : ResultCode) (s : State) : State := s.respond e 0#28

/-- A command transfer (R61): the word `w` is in flight, the controller's remaining words are `rest`, and the sequence index
advances by one (R23). -/
def State.accept (w : Word) (rest : List Word) (s : State) : State :=
  { s with cmdIn := rest, inFlight := some w, seqIndex := s.seqIndex + 1 }

/-- A response transfer (R61): the controller takes `r`, and no command is in flight any more. -/
def State.deliver (r : Word) (s : State) : State :=
  { s with inFlight := none, rsp := none, rspOut := s.rspOut ++ [r] }

/-- An edge while a command is in flight: its response is delivered when the controller is ready, and otherwise nothing
changes (R61). -/
def State.awaitDelivery (s : State) : State :=
  match s.rsp with
  | some r => if s.rspReady then s.deliver r else s
  | none => s

/-- An edge with `rst = 1` (R200): every piece of the SPF's state takes its reset value, a command in flight and its response
are discarded (R202), and the parameters and the controller's own inputs stay. -/
def State.resetEdge (s : State) : State :=
  { State.resetWith s.params with rst := s.rst, cmdIn := s.cmdIn, rspReady := s.rspReady }

/-- The controller drives `rsp_ready` (R60, R61). -/
def State.driveRspReady (q : Bool) (s : State) : State := { s with rspReady := q }

/-- The controller presents `w` next at a block that can accept it: `rst` low, the pending response delivered (entry 9). -/
def State.presentNext (w : Word) (s : State) : State :=
  let t := match s.rsp with
    | some r => s.deliver r
    | none => { s with inFlight := none }
  { t with rst := false, cmdIn := w :: t.cmdIn }

end Sys2Proof.Machine
end

