-- ==== Sys2Proof/Machine/Checksum.lean ====
section
/-! DEFINITION. The checksum validator (42_checksum_validator.md R150, R151). -/

namespace Sys2Proof.Machine

/-- `sum8(S)`: the sum of the bytes modulo 256, `sum8([]) = 0` (R150). -/
def sum8 : List Byte → Byte
  | [] => 0#8
  | b :: S => b + sum8 S

/-- The bytes the checksum covers, `F[1 .. 3+L]`: STATUS to the end of PAYLOAD (R71, R151). -/
def checksumSpan (F : List Byte) (L : Nat) : List Byte := (F.drop 1).take (3 + L)

/-- `validate(F)` (R151), with its two defensive size checks. A sequence of fewer than 4 bytes has no LENGTH byte and has
already failed the first check. -/
def validate (F : List Byte) : Bool :=
  if F.length < 6 then false
  else
    match F[3]? with
    | none => false
    | some len =>
      if F.length ≠ len.toNat + 6 then false
      else decide (F[4 + len.toNat]? = some (sum8 (checksumSpan F len.toNat)))

end Sys2Proof.Machine
end

