-- ==== Sys2Proof/Machine/Flags.lean ====
section
/-! DEFINITION. FRAME_VALID, the only status flag (10_state.md R24), and FRAME_INFO, the view of it and of FRAME_BUF (R30). There are
no condition codes. -/

namespace Sys2Proof.Machine

/-- FRAME_VALID (R24, R37). -/
def State.frameValid (s : State) : Bool := s.frame.isSome

/-- FRAME_INFO for a held frame: `{0b000, 1, F[1], F[2], F[3]}` (R30, R130). A frame of fewer than 4 bytes is never held
(R36); its absent fields read as the 0 of a frame that is not held (entry 12). -/
def frameInfoOf (F : List Byte) : Data :=
  match F with
  | _ :: status :: packetType :: len :: _ => 0b0001#4 ++ status ++ packetType ++ len
  | _ => 0#28

/-- FRAME_INFO, register 4: 0 when FRAME_VALID = 0 (R30). -/
def State.frameInfo (s : State) : Data :=
  match s.frame with
  | some F => frameInfoOf F
  | none => 0#28

end Sys2Proof.Machine
end

