-- ==== Sys2Proof/Machine/FrameScanner.lean ====
section
/-! DEFINITION. The frame scanner, SCAN (41_frame_scanner.md R120..R136). One pass of R120's loop is `scanPass`, in the rule's
order of tests; `scanLoop` repeats it after each resynchronisation, all within one atomic command. -/

namespace Sys2Proof.Machine

/-- What one pass of SCAN's loop finds (R122..R128); `start` is the offset `s` of the first marker, `len` the LENGTH value. -/
inductive ScanPass
  /-- No start marker in the window (R123). -/
  | noMarker
  /-- A marker whose 4-byte header is not all there (R124). -/
  | headerWait
  /-- A declared frame that would end beyond the window's capacity (R125). -/
  | implausible (start : Nat)
  /-- A frame that is not all there (R126). -/
  | bodyWait
  /-- A whole frame whose last byte is not `ETX` (R127). -/
  | badEnd (start : Nat)
  /-- A candidate frame (R128). -/
  | candidate (start len : Nat)
deriving DecidableEq, Repr

/-- One pass over the window `W`. `W[s+3]` exists exactly when `|W| ≥ s + 4` (R124), and `W[s+L+5]` exactly when
`|W| ≥ s + L + 6` (R126). -/
def scanPass (p : Params) (W : Window) : ScanPass :=
  match firstIndex p.stx W with
  | none => .noMarker
  | some start =>
    match W[start + 3]? with
    | none => .headerWait
    | some len =>
      if start + len.toNat + 6 > p.capacity then .implausible start
      else
        match W[start + len.toNat + 5]? with
        | none => .bodyWait
        | some e => if e = p.etx then .candidate start len.toNat else .badEnd start

/-- How many bytes SCAN drops when there is no marker: all, or all but the newest (R123). -/
def noMarkerDrop (retain : Bool) (n : Nat) : Nat :=
  if retain = true ∧ 1 ≤ n then n - 1 else n

/-- Resynchronisation (R127): drop the marker and everything before it, and count the event. -/
def State.resync (start : Nat) (s : State) : State := (s.winDrop (start + 1)).countResync

/-- The candidate frame `W[s .. s+L+5]` (R128). -/
def candidateFrame (start len : Nat) (W : Window) : List Byte := (W.drop start).take (len + 6)

/-- Extraction, validation and result (R128..R130): the window advances past the frame whatever the checksum says. -/
def State.extract (start len : Nat) (s : State) : State :=
  let F := candidateFrame start len s.window
  let t := s.winDrop (start + len + 6)
  if validate F then (t.holdFrame F).respond .frameOk (frameInfoOf F)
  else t.respond .checksumMismatch 0#28

/-- R120's loop with at most `fuel` passes. A pass that does not end the command drops at least one byte, so `|W| + 1` passes
always suffice (R132) and the first arm is never reached from `execScan` (entry 13). -/
def scanLoop : Nat → State → State
  | 0, s => s.respond .noFrameYet 0#28
  | fuel + 1, s =>
    match scanPass s.params s.window with
    | .noMarker => (s.winDrop (noMarkerDrop s.retainLast s.window.length)).respond .noFrameYet 0#28
    | .headerWait => s.respond .noFrameYet 0#28
    | .implausible start => scanLoop fuel (s.resync start)
    | .bodyWait => s.respond .noFrameYet 0#28
    | .badEnd start => scanLoop fuel (s.resync start)
    | .candidate start len => s.extract start len

/-- SCAN (R120): clear FRAME_VALID (R121), then the loop. -/
def execScan (s : State) : Host.Outcome State Fault Refusal :=
  .next (scanLoop (s.window.length + 1) s.clearFrame)

end Sys2Proof.Machine
end

