-- ==== Sys2Proof/Machine/Operands.lean ====
section
/-! DEFINITION. Reading the three index spaces of 20_memory.md R40: window offsets, frame-buffer indices and register numbers. An
ARG is an unsigned index, never scaled (30_encoding.md R65); a position that does not exist reads as `none`. -/

namespace Sys2Proof.Machine

/-- The window byte at offset `off`, `MemRead(off, 1)[0]` (R41, R46). -/
def State.windowByte (off : Nat) (s : State) : Option Byte := s.window[off]?

/-- The byte `i` of the held frame; `none` when FRAME_VALID = 0 or `i ≥ |FRAME_BUF|` (R160). -/
def State.frameByte (i : Nat) (s : State) : Option Byte := s.frame.bind (fun F => F[i]?)

/-- A byte as response data, `zext_28` (R68). -/
def byteData (b : Byte) : Data := b.zeroExtend 28

/-- CONST, register 5: `{4[3:0], POS_TYPE, ETX, STX}` (R31). -/
def constData (p : Params) : Data := BitVec.ofNat 4 Config.headerLen ++ p.posType ++ p.etx ++ p.stx

/-- The register file as RDREG reads it (R25, R161): OCC, CAPACITY, RESYNC_CNT, CTRL, FRAME_INFO, CONST. Numbers 6..65535 are
not implemented. OCC is exact for every window that keeps its form (R27, entry 12). -/
def State.readReg (r : Arg) (s : State) : Option Data :=
  match r.toNat with
  | 0 => some (BitVec.ofNat 28 s.window.length)
  | 1 => some (s.params.cap.zeroExtend 28)
  | 2 => some (s.resyncCnt.zeroExtend 28)
  | 3 => some ((BitVec.ofBool s.retainLast).zeroExtend 28)
  | 4 => some s.frameInfo
  | 5 => some (constData s.params)
  | _ => none

end Sys2Proof.Machine
end

