-- ==== Sys2Proof/Machine/RegisterAccess.lean ====
section
/-! DEFINITION. Frame read-out and register access: READF, RDREG, WRCTRL (43_frame_and_register_access.md R160, R161, R163). -/

namespace Sys2Proof.Machine

/-- READF (R160): one byte of the held frame, or OUT_OF_RANGE when no frame is held or the index is past its end. -/
def execReadf (i : Arg) (s : State) : Host.Outcome State Fault Refusal :=
  match s.frameByte i.toNat with
  | some b => .next (s.respond .ok (byteData b))
  | none => .next (s.raiseError .outOfRange)

/-- RDREG (R161): a register, or ILLEGAL_CMD for a number that is not implemented. -/
def execRdreg (r : Arg) (s : State) : Host.Outcome State Fault Refusal :=
  match s.readReg r with
  | some d => .next (s.respond .ok d)
  | none => .next (s.raiseError .illegalCmd)

/-- WRCTRL (R163): set the no-marker policy. -/
def execWrctrl (v : Bool) (s : State) : Host.Outcome State Fault Refusal :=
  .next ((s.setRetain v).respond .ok 0#28)

end Sys2Proof.Machine
end

