-- ==== Sys2Proof/Machine/RingBuffer.lean ====
section
/-! DEFINITION. The ring-buffer commands APPEND, PEEK and CONSUME (40_ring_buffer.md R100..R102). The ILLEGAL_CMD cases of their
rules are words that the decoder refuses (R64); Step.lean answers those. -/

namespace Sys2Proof.Machine

/-- APPEND (R100): never fails, evicts the oldest byte of a full window. -/
def execAppend (b : Byte) (s : State) : Host.Outcome State Fault Refusal :=
  .next ((s.winAppend b).respond .ok 0#28)

/-- PEEK (R101): one window byte, or OUT_OF_RANGE when `off + 1 > |W|`. -/
def execPeek (off : Arg) (s : State) : Host.Outcome State Fault Refusal :=
  match s.windowByte off.toNat with
  | some b => .next (s.respond .ok (byteData b))
  | none => .next (s.raiseError .outOfRange)

/-- CONSUME (R102): discard `n` bytes, or OUT_OF_RANGE and discard nothing when `n > |W|`. -/
def execConsume (n : Arg) (s : State) : Host.Outcome State Fault Refusal :=
  if n.toNat > s.window.length then .next (s.raiseError .outOfRange)
  else .next ((s.winDrop n.toNat).respond .ok 0#28)

end Sys2Proof.Machine
end

