-- ==== Sys2Proof/Machine/Dispatch.lean ====
section
/-! DEFINITION. The one match on commands: each arm calls its command's meaning. -/

namespace Sys2Proof.Machine

def exec (i : Instr) (s : State) : Host.Outcome State Fault Refusal :=
  match i with
  | .append b => Sys2Proof.Machine.execAppend b s
  | .scan => Sys2Proof.Machine.execScan s
  | .peek off => Sys2Proof.Machine.execPeek off s
  | .consume n => Sys2Proof.Machine.execConsume n s
  | .readf idx => Sys2Proof.Machine.execReadf idx s
  | .rdreg r => Sys2Proof.Machine.execRdreg r s
  | .wrctrl v => Sys2Proof.Machine.execWrctrl v s

end Sys2Proof.Machine
end

