-- ==== Sys2Proof/Machine/Step.lean ====
section
/-! DEFINITION. One step: a reset edge, a command accepted and run, a response delivered, or an edge at which nothing moves
(30_encoding.md R61; 70_reset_and_hazards.md R200, R210). -/

namespace Sys2Proof.Machine

/-- Run an accepted word: the command it decodes to, or ILLEGAL_CMD with no state change (R64, R183, R184). -/
def runWord (w : Word) (s : State) : Host.Outcome State Fault Refusal :=
  match decode w with
  | .ok i => exec i s
  | .error _ => .next (s.raiseError .illegalCmd)

/-- The next edge. `rst` wins (R200); then a command in flight waits for its response to be taken (R61); then the next word
offered is accepted and runs as one atomic transition (R50). With nothing offered the SPF holds its state (R193). -/
def step (s : State) : Host.Outcome State Fault Refusal :=
  if s.rst then .next s.resetEdge
  else
    match s.inFlight with
    | some _ => .next s.awaitDelivery
    | none =>
      match s.cmdIn with
      | [] => .next s
      | w :: rest => runWord w (s.accept w rest)

/-- `s` with an opcode-table word presented as the next command: the very next step accepts and runs it (entry 9). -/
def State.withFetchWord (s : State) (nbits w : Nat) : State := s.presentNext (tableWord nbits w)

end Sys2Proof.Machine
end

