-- ==== Sys2Proof/Machine/Assembler.lean ====
section
/-! DEFINITION. The assembler syntax, register aliases and pseudo-commands of 30_encoding.md R74, R75. Text is a list of characters.
What R74 leaves unsaid about spaces and letter case is in entry 10. -/

namespace Sys2Proof.Machine

/-- What a line says, before its operands are checked. -/
inductive AsmLine
  /-- Nothing but spaces or a comment. -/
  | blank
  /-- One command, by its opcode and its operand (R74). -/
  | command (op operand : Nat)
  /-- `APPENDS b0, b1, .., bk` (R75). -/
  | appends (bytes : List Nat)
  /-- `PEEKN off, len` (R75). -/
  | peekn (off len : Nat)
  /-- `FLUSH`, the controller's two commands (R75). -/
  | flush
deriving DecidableEq, Repr

/-- `(OP << 28) | operand`; an operand out of its field's range is an error, never truncated (R74). -/
def assembleCommand (op operand : Nat) : Option Word :=
  if commandWellFormed op operand then some (BitVec.ofNat 32 (op * 2 ^ 28 + operand)) else none

/-- The commands of a list of opcode and operand pairs, none when one of them is in error. -/
def assembleCommands (cs : List (Nat × Nat)) : Option (List Word) :=
  cs.mapM (fun c => assembleCommand c.1 c.2)

/-- What a line sends: words known when it is assembled, or FLUSH, whose second word depends on a response. -/
inductive AsmOutput
  | words (ws : List Word)
  | flush
deriving DecidableEq, Repr

/-- The expansion of a line (R75). -/
def assembleLine (l : AsmLine) : Option AsmOutput :=
  match l with
  | .blank => some (.words [])
  | .command op operand => (assembleCommands [(op, operand)]).map .words
  | .appends bytes => (assembleCommands (bytes.map (fun b => (1, b)))).map .words
  | .peekn off len => (assembleCommands ((List.range len).map (fun i => (3, off + i)))).map .words
  | .flush => some .flush

/-- FLUSH's first command, RDOCC (R75). -/
def flushFirst : Instr := .rdreg 0#16

/-- FLUSH's second command, CONSUME of DATA[15:0] of the RDOCC response (R75). -/
def flushSecond (rsp : Word) : Instr := .consume ((dataField rsp).extractLsb' 0 16)

/-- The value of a hexadecimal or decimal digit. -/
def digitValue (base : Nat) (c : Char) : Option Nat :=
  let v :=
    if '0' ≤ c ∧ c ≤ '9' then c.toNat - 48
    else if 'A' ≤ c ∧ c ≤ 'F' then c.toNat - 55
    else if 'a' ≤ c ∧ c ≤ 'f' then c.toNat - 87
    else base
  if v < base then some v else none

/-- Digits read from the left, added to `acc`. -/
def parseDigits (base acc : Nat) : List Char → Option Nat
  | [] => some acc
  | c :: cs =>
    match digitValue base c with
    | some v => parseDigits base (acc * base + v) cs
    | none => none

/-- An operand: decimal, or hexadecimal after `0x` (R74). -/
def parseNumber (cs : List Char) : Option Nat :=
  match cs with
  | [] => none
  | ['0', 'x'] => none
  | '0' :: 'x' :: ds => parseDigits 16 0 ds
  | ds => parseDigits 10 0 ds

/-- The pieces of a text between the characters `sep`. -/
def splitAtChar (sep : Char) : List Char → List (List Char)
  | [] => [[]]
  | c :: cs =>
    if c = sep then [] :: splitAtChar sep cs
    else
      match splitAtChar sep cs with
      | [] => [[c]]
      | g :: gs => (c :: g) :: gs

/-- A text without its leading and trailing spaces. -/
def trimSpaces (cs : List Char) : List Char :=
  ((cs.dropWhile (· = ' ')).reverse.dropWhile (· = ' ')).reverse

/-- The operands of a line, separated by commas. -/
def parseOperands (cs : List Char) : Option (List Nat) :=
  if trimSpaces cs = [] then some []
  else (splitAtChar ',' cs).mapM (fun t => parseNumber (trimSpaces t))

/-- The forms of R74, the register aliases of R74 and the pseudo-commands of R75. -/
def asmForm (mnemonic : List Char) (operands : List Nat) : Option AsmLine :=
  match String.ofList mnemonic, operands with
  | "APPEND", [b] => some (.command 1 b)
  | "SCAN", [] => some (.command 2 0)
  | "PEEK", [off] => some (.command 3 off)
  | "CONSUME", [n] => some (.command 4 n)
  | "READF", [i] => some (.command 5 i)
  | "RDREG", [r] => some (.command 6 r)
  | "WRCTRL", [v] => some (.command 7 v)
  | "RDOCC", [] => some (.command 6 0)
  | "RDCAP", [] => some (.command 6 1)
  | "RDRESYNC", [] => some (.command 6 2)
  | "RDCTRL", [] => some (.command 6 3)
  | "RDFINFO", [] => some (.command 6 4)
  | "RDCONST", [] => some (.command 6 5)
  | "APPENDS", b :: bs => some (.appends (b :: bs))
  | "PEEKN", [off, len] => some (.peekn off len)
  | "SETRETAIN", [] => some (.command 7 1)
  | "SETDISCARD", [] => some (.command 7 0)
  | "FLUSH", [] => some .flush
  | _, _ => none

/-- One line of text: `MNEMONIC` or `MNEMONIC operand`, with `;` starting a comment (R74). -/
def parseLine (text : List Char) : Option AsmLine :=
  let body := trimSpaces (text.takeWhile (· ≠ ';'))
  if body = [] then some .blank
  else (parseOperands (body.dropWhile (· ≠ ' '))).bind (asmForm (body.takeWhile (· ≠ ' ')))

/-- A line of text assembled. -/
def assembleText (text : List Char) : Option AsmOutput := (parseLine text).bind assembleLine

end Sys2Proof.Machine
end

