-- ==== Sys2Proof/Machine/RingStorage.lean ====
section
/-! DEFINITION. The circular layout of 20_memory.md R56, one conforming implementation of the window. It is no part of State, since
no command observes it (10_state.md R33); it is here so that its agreement with the window can be stated. -/

namespace Sys2Proof.Machine

/-- `MEM[0..CAP-1]`, the read pointer `RP` and the count `N` (R56). -/
structure RingStorage where
  mem : List Byte
  rp : Nat
  count : Nat
deriving DecidableEq, Repr

/-- A storage of `cap` bytes whose pointer and count are in range. Nothing fixes what `MEM` or `RP` start as (R35, R56). -/
abbrev RingStorage.ok (cap : Nat) (r : RingStorage) : Prop :=
  r.mem.length = cap ∧ r.rp < cap ∧ r.count ≤ cap

/-- The place of window offset `i`: `(RP + i) mod CAP` (R56). -/
def ringSlot (r : RingStorage) (i : Nat) : Nat := (r.rp + i) % r.mem.length

/-- The window that a storage holds: `W[i] = MEM[(RP + i) mod CAP]` for `0 ≤ i < N` (R56). The default of the read is never
used in a storage that is `ok` (entry 15). -/
def ringWindow (r : RingStorage) : Window :=
  (List.range r.count).map (fun i => r.mem.getD (ringSlot r i) 0#8)

/-- WinAppend on the storage (R56). -/
def ringAppend (b : Byte) (r : RingStorage) : RingStorage :=
  { mem := r.mem.set (ringSlot r r.count) b,
    rp := if r.count < r.mem.length then r.rp else (r.rp + 1) % r.mem.length,
    count := if r.count < r.mem.length then r.count + 1 else r.count }

/-- WinDrop on the storage, for `n ≤ N` (R56). -/
def ringDrop (n : Nat) (r : RingStorage) : RingStorage :=
  { r with rp := (r.rp + n) % r.mem.length, count := r.count - n }

end Sys2Proof.Machine
end

