-- ==== Sys2Proof/Machine/Controller.lean ====
section
/-! DEFINITION. Successive edges under a controller that drives `rsp_ready` afresh at every edge (30_encoding.md R60, R61), so that
stalls of any length and the fairness of 70_reset_and_hazards.md R212 can be said. -/

namespace Sys2Proof.Machine

/-- One edge at which the controller drives `rsp_ready` to `q` (R61). -/
def edgeWith (q : Bool) (s : State) : Host.Outcome State Fault Refusal := step (s.driveRspReady q)

/-- The first `n` edges from `s`, `rsp_ready` being `ready k` at edge `k` (R61). -/
def runEdges (ready : Nat → Bool) : Nat → State → Host.Outcome State Fault Refusal
  | 0, s => .next s
  | n + 1, s =>
    match runEdges ready n s with
    | .next t => edgeWith (ready n) t
    | .fault r => .fault r
    | .refused r => .refused r

end Sys2Proof.Machine
end

