-- ==== Sys2Proof/Safety.lean ====
section
/-! DEFINITION. The terms the statements use: the invariants of the machine (10_state.md R21, R36; 30_encoding.md R61, R77), the words
that are no command (R64), sequences of commands, and a fair controller (70_reset_and_hazards.md R212). -/

namespace Sys2Proof.Machine

/-- What R36 says of a held frame: `|F| = F[3] + 6`, first byte `STX`, last byte `ETX`, no longer than the window's capacity, and
validated. -/
abbrev FrameOk (p : Params) (F : List Byte) : Prop :=
  (F[3]?).map (fun len => len.toNat + 6) = some F.length ∧
  F[0]? = some p.stx ∧
  F.getLast? = some p.etx ∧
  F.length ≤ p.capacity ∧
  validate F = true

/-- The invariant of R36, with the legal range of `CAP` (R8) that it needs. -/
abbrev StateInv (s : State) : Prop :=
  s.params.legal ∧ Memory.wf s.params s.window ∧ ∀ F ∈ s.frame, FrameOk s.params F

/-- The invariant of the ports: a response is pending exactly while a command is in flight (R61 without LATENCY, entry 3), and every
command accepted since reset has had its one response delivered, but for the one in flight (R23, R66, R77). -/
abbrev PortInv (s : State) : Prop :=
  s.rsp.isSome = s.inFlight.isSome ∧
  s.seqIndex = s.rspOut.length + s.inFlight.toList.length

/-- The words that are no command, as R64 lists them. -/
abbrev IllegalEncoding (w : Word) : Prop :=
  opField w = 0#4 ∨ 8#4 ≤ opField w ∨ rsvField w ≠ 0#12 ∨
  (opField w = 1#4 ∧ w.extractLsb' 8 8 ≠ 0#8) ∨
  (opField w = 2#4 ∧ argField w ≠ 0#16) ∨
  (opField w = 7#4 ∧ w.extractLsb' 1 15 ≠ 0#15)

/-- `last_CAP(S)` of 20_memory.md R48: the most recent `cap` bytes. -/
def lastBytes (cap : Nat) (S : List Byte) : List Byte := S.drop (S.length - cap)

/-- Commands run one after the other, stopping at the first that gives no next state. -/
def execAll : List Instr → State → Host.Outcome State Fault Refusal
  | [], s => .next s
  | i :: is, s =>
    match exec i s with
    | .next t => execAll is t
    | .fault r => .fault r
    | .refused r => .refused r

/-- Fairness of the controller (70_reset_and_hazards.md R212): whatever edge is reached, `rsp_ready` is high at it or at a later
one. -/
abbrev Fair (ready : Nat → Bool) : Prop := ∀ n, ∃ m, n ≤ m ∧ ready m = true

/-- The responses to a sequence of words, each word run on the state that the words before it left (R77). -/
def answers : List Word → State → List Word
  | [], _ => []
  | w :: ws, s =>
    match runWord w s with
    | .next t => t.rsp.toList ++ answers ws t
    | .fault _ => []
    | .refused _ => []

/-- The byte that a command adds at the newest end of the window (R20: only APPEND adds one). -/
def addedByte : Instr → List Byte
  | .append b => [b]
  | .scan => []
  | .peek _ => []
  | .consume _ => []
  | .readf _ => []
  | .rdreg _ => []
  | .wrctrl _ => []

/-- The bytes that a sequence of commands appends, in order. -/
def appendedBytes (is : List Instr) : List Byte := is.flatMap addedByte

end Sys2Proof.Machine
end

