-- ==== Sys2Proof/Certificates/Slice0/Obligations.lean ====
section
/-! DEFINITION. The statements for the provers, in the order of OBLIGATIONS.json. A docstring names the rule of spec/ a statement
formalises, or says that it is derived. Next states are written out in full, so that a statement of a result is also the frame of
its command: every field not named after `with` is unchanged. -/

open Sys2Proof Sys2Proof.Machine

/-! ## Encoding -/

/-- Decoding the word of any instruction gives it back with every operand (derived from R62, R63, R65). Every instruction is well
formed: Laws/PerInstr.lean. -/
def Obligations.DecodeOfEncodeIsTheInstruction : Prop :=
  ∀ i : Instr, decode (encode i) = .ok i

/-- A word that decodes to a command is that command's only word: no bit of it is dropped (derived from R62, R63, R64). -/
def Obligations.EncodeOfDecodeIsTheWord : Prop :=
  ∀ (w : Word) (i : Instr), decode w = .ok i → encode i = w

/-- R63 and R65: a word is the command of a row exactly when `w & mask = match`, its operand is read from ARG as it stands, and the
reserved opcodes are no command. -/
def Obligations.WordIsCommandExactlyWhenMaskMatches : Prop :=
  ∀ w : Word,
    (w &&& 0xFFFFFF00#32 = 0x10000000#32 ↔ decode w = .ok (.append (w.extractLsb' 0 8))) ∧
    (w &&& 0xFFFFFFFF#32 = 0x20000000#32 ↔ decode w = .ok .scan) ∧
    (w &&& 0xFFFF0000#32 = 0x30000000#32 ↔ decode w = .ok (.peek (w.extractLsb' 0 16))) ∧
    (w &&& 0xFFFF0000#32 = 0x40000000#32 ↔ decode w = .ok (.consume (w.extractLsb' 0 16))) ∧
    (w &&& 0xFFFF0000#32 = 0x50000000#32 ↔ decode w = .ok (.readf (w.extractLsb' 0 16))) ∧
    (w &&& 0xFFFF0000#32 = 0x60000000#32 ↔ decode w = .ok (.rdreg (w.extractLsb' 0 16))) ∧
    (w &&& 0xFFFFFFFE#32 = 0x70000000#32 ↔ decode w = .ok (.wrctrl (w.getLsbD 0))) ∧
    (opField w = 0#4 ∨ 8#4 ≤ opField w → ∀ i, decode w ≠ .ok i)

/-- Words written out from the encodings of R63 decode to their commands (derived: fixed words). -/
def Obligations.WrittenOutWordsDecode : Prop :=
  decode 0b00010000000000000000000010111111#32 = .ok (.append 0xBF#8) ∧
  decode 0b00100000000000000000000000000000#32 = .ok .scan ∧
  decode 0b00110000000000001000000000000011#32 = .ok (.peek 0x8003#16) ∧
  decode 0b01000000000000000000000100000010#32 = .ok (.consume 258#16) ∧
  decode 0b01010000000000000000000000000111#32 = .ok (.readf 7#16) ∧
  decode 0b01100000000000000000000000000101#32 = .ok (.rdreg 5#16) ∧
  decode 0b01110000000000000000000000000001#32 = .ok (.wrctrl true)

/-- R64: the illegal words answer ILLEGAL_CMD and change nothing but the response, RDREG of 6..65535 does too, every other word is a
command, and an index out of range answers OUT_OF_RANGE instead. -/
def Obligations.IllegalWordsAnswerIllegalCmd : Prop :=
  ∀ (w : Word) (s : State),
    (IllegalEncoding w → runWord w s = .next { s with rsp := some 0x20000000#32 }) ∧
    (¬ IllegalEncoding w → ∃ i, decode w = .ok i) ∧
    (¬ IllegalEncoding w → opField w = 6#4 → 6 ≤ (argField w).toNat →
      runWord w s = .next { s with rsp := some 0x20000000#32 }) ∧
    (¬ IllegalEncoding w → opField w = 3#4 → s.window.length ≤ (argField w).toNat →
      runWord w s = .next { s with rsp := some 0x10000000#32 }) ∧
    (¬ IllegalEncoding w → opField w = 4#4 → s.window.length < (argField w).toNat →
      runWord w s = .next { s with rsp := some 0x10000000#32 }) ∧
    (¬ IllegalEncoding w → opField w = 5#4 → (∀ F ∈ s.frame, F.length ≤ (argField w).toNat) →
      runWord w s = .next { s with rsp := some 0x10000000#32 })

/-- R183: ILLEGAL_CMD is raised for the words that are no command and for RDREG of an unimplemented register, and for no others. -/
def Obligations.IllegalCmdOnlyForIllegalWords : Prop :=
  ∀ (w : Word) (s t : State), runWord w s = .next t →
    (t.rsp.map rcField = some 2#4 ↔
      IllegalEncoding w ∨ (opField w = 6#4 ∧ 6 ≤ (argField w).toNat))

/-- The order of the decoder's checks (derived from R185, items 1 to 3): reserved opcode, then RSV, then reserved ARG bits. -/
def Obligations.DecodeErrorPriority : Prop :=
  ∀ w : Word,
    (opField w = 0#4 ∨ 8#4 ≤ opField w → decode w = .error .reservedOpcode) ∧
    (¬ (opField w = 0#4 ∨ 8#4 ≤ opField w) → rsvField w ≠ 0#12 → decode w = .error .nonzeroRsv) ∧
    (¬ (opField w = 0#4 ∨ 8#4 ≤ opField w) → rsvField w = 0#12 → IllegalEncoding w →
      decode w = .error .nonzeroReservedArg)

/-- R74: a command line encodes as `(OP << 28) | operand`, an operand out of its field's range is an error, and so is a reserved
opcode. The word decodes to the command whose opcode and operand were given (derived from R74 with R63). -/
def Obligations.AssembledCommandIsItsEncoding : Prop :=
  (∀ i : Instr, assembleCommand i.opcode.toNat i.operand = some (encode i)) ∧
  ∀ op operand : Nat, ∀ w : Word, assembleCommand op operand = some w →
    ∃ i, decode w = .ok i ∧ i.opcode.toNat = op ∧ i.operand = operand

/-! ## The step and the ports -/

/-- A word offered to a ready SPF that decodes to `i` runs as `i`, with the word accepted: it leaves the port, is in flight, and the
sequence index advances by one (derived from R61, R23, R50). That acceptance and the command's transition are one step is the
model's choice, where the spec leaves open when between acceptance and response the transition happens: entries 3 and 8. -/
def Obligations.StepRunsTheDecodedInstruction : Prop :=
  ∀ (s : State) (w : Word) (rest : List Word) (i : Instr),
    s.cmdReady = true → s.cmdIn = w :: rest → decode w = .ok i →
    step s = exec i { s with cmdIn := rest, inFlight := some w, seqIndex := s.seqIndex + 1 }

/-- Every accepted word gets one response word: it is offered on the edge after acceptance, `cmd_ready` is low until it is
delivered, and the delivering edge hands out that one word and makes the SPF ready again (derived from R61, R66, R77, without
LATENCY: entry 3). -/
def Obligations.EveryAcceptedWordGetsOneResponse : Prop :=
  ∀ (s : State) (w : Word) (rest : List Word), s.cmdReady = true → s.cmdIn = w :: rest →
    ∃ (t : State) (r : Word), step s = .next t ∧
      t.rsp = some r ∧ t.rspValid = true ∧ t.cmdReady = false ∧
      t.inFlight = some w ∧ t.cmdIn = rest ∧ t.seqIndex = s.seqIndex + 1 ∧ t.rspOut = s.rspOut ∧
      t.rst = s.rst ∧ t.rspReady = s.rspReady ∧ t.params = s.params ∧
      step { t with rspReady := true } =
        .next { t with rspReady := true, rsp := none, inFlight := none, rspOut := s.rspOut ++ [r] } ∧
      ({ t with rsp := none, inFlight := none } : State).cmdReady = true

/-- A controller that does not take the response stalls the SPF, and with no command offered the SPF holds its state: nothing
changes (derived from R61, R193; 93 I18). -/
def Obligations.StalledOrIdleSpfHoldsItsState : Prop :=
  (∀ s : State, s.rst = false → s.inFlight.isSome = true → s.rspReady = false → step s = .next s) ∧
  (∀ s : State, s.rst = false → s.inFlight = none → s.cmdIn = [] → step s = .next s)

/-- R200: at one edge with `rst = 1` the state becomes the reset state, `cmd_ready` and `rsp_valid` are low while `rst` is high, so no
word leaves the command port and no response can be delivered. -/
def Obligations.ResetEdgeGivesResetState : Prop :=
  ∀ s : State, s.rst = true →
    s.cmdReady = false ∧ s.rspValid = false ∧
    ∃ t, step s = .next t ∧
      t.window = [] ∧ t.resyncCnt = 0#16 ∧ t.retainLast = false ∧ t.frame = none ∧
      t.inFlight = none ∧ t.rsp = none ∧ t.seqIndex = 0 ∧ t.params = s.params ∧ t.cmdIn = s.cmdIn

/-- A command in flight when reset is asserted gets no response, and whether its transition happened is unobservable: the reset edge
leads to the same state from before and from after it (derived from R202). That the edge leaves the controller's inputs and empties
the record of responses is the model's choice: entries 4 and 5. -/
def Obligations.ResetHidesTheCommandInFlight : Prop :=
  ∀ (i : Instr) (s t : State), exec i s = .next t →
    ∃ u, step { s with rst := true } = .next u ∧ step { t with rst := true } = .next u ∧
      u.rsp = none ∧ u.inFlight = none ∧ u.rspOut = [] ∧ u.cmdIn = s.cmdIn ∧ u.rst = true ∧ u.rspReady = s.rspReady

/-- No step ever faults or is refused (derived from R184 and 93: "`fault`: not used", "`stuck`: not used"). -/
def Obligations.StepAlwaysAnswersNext : Prop :=
  ∀ s : State, ∃ t, step s = .next t

/-- A controller that presents words and takes every response gets one response per word: after two edges a word every word has been
accepted and answered (derived from R66, R77, R23). The count of two edges a word is the model's, which has no LATENCY: entry 3. -/
def Obligations.CommandStreamIsAnsweredWordForWord : Prop :=
  ∀ (ws : List Word) (s : State),
    s.cmdReady = true → s.rsp = none → s.rspReady = true → s.cmdIn = ws →
    ∃ (t : State) (rs : List Word), Host.Core.run Sys2Proof.core (2 * ws.length) s = .next t ∧
      rs.length = ws.length ∧ t.rspOut = s.rspOut ++ rs ∧ t.cmdIn = [] ∧
      t.seqIndex = s.seqIndex + ws.length ∧ t.cmdReady = true ∧ t.rsp = none ∧ t.params = s.params

/-! ## Ring-buffer commands -/

/-- R44: WinAppend adds the byte at the newest end and evicts the oldest byte when the window is full; it never fails. -/
def Obligations.AppendAddsNewestAndEvictsOldest : Prop :=
  ∀ (b : Byte) (s : State),
    exec (.append b) s = .next { s with
      window := if s.window.length < s.params.capacity then s.window ++ [b] else s.window.drop 1 ++ [b],
      rsp := some 0x00000000#32 }

/-- R100, APPEND's pseudocode on the whole word. -/
def Obligations.AppendWordFollowsItsPseudocode : Prop :=
  ∀ (w : Word) (s : State), opField w = 1#4 →
    runWord w s = .next (
      if rsvField w ≠ 0#12 ∨ w.extractLsb' 8 8 ≠ 0#8 then { s with rsp := some 0x20000000#32 }
      else { s with
        window := if s.window.length < s.params.capacity then s.window ++ [w.extractLsb' 0 8]
          else s.window.drop 1 ++ [w.extractLsb' 0 8],
        rsp := some 0x00000000#32 })

/-- PEEK reads the byte at its offset and changes nothing; an offset outside the window answers OUT_OF_RANGE (derived from R101, for
the decoded command). -/
def Obligations.PeekReadsOneWindowByte : Prop :=
  (∀ (off : Arg) (s : State) (h : off.toNat < s.window.length),
    exec (.peek off) s = .next { s with rsp := some (0#24 ++ s.window[off.toNat]) }) ∧
  (∀ (off : Arg) (s : State), s.window.length ≤ off.toNat →
    exec (.peek off) s = .next { s with rsp := some 0x10000000#32 })

/-- R101, PEEK's pseudocode on the whole word, with MemRead. -/
def Obligations.PeekWordFollowsItsPseudocode : Prop :=
  ∀ (w : Word) (s : State), opField w = 3#4 →
    runWord w s = .next (
      if rsvField w ≠ 0#12 then { s with rsp := some 0x20000000#32 }
      else if (argField w).toNat + 1 > s.window.length then { s with rsp := some 0x10000000#32 }
      else { s with rsp := ((memRead (argField w).toNat 1 s.window).bind List.head?).map (fun b => 0#24 ++ b) })

/-- CONSUME discards its count from the front, or discards nothing and answers OUT_OF_RANGE (derived from R102, for the decoded
command). -/
def Obligations.ConsumeDiscardsFromTheFront : Prop :=
  (∀ (n : Arg) (s : State), n.toNat ≤ s.window.length →
    exec (.consume n) s = .next { s with window := s.window.drop n.toNat, rsp := some 0x00000000#32 }) ∧
  (∀ (n : Arg) (s : State), s.window.length < n.toNat →
    exec (.consume n) s = .next { s with rsp := some 0x10000000#32 })

/-- R102, CONSUME's pseudocode on the whole word. -/
def Obligations.ConsumeWordFollowsItsPseudocode : Prop :=
  ∀ (w : Word) (s : State), opField w = 4#4 →
    runWord w s = .next (
      if rsvField w ≠ 0#12 then { s with rsp := some 0x20000000#32 }
      else if (argField w).toNat > s.window.length then { s with rsp := some 0x10000000#32 }
      else { s with window := s.window.drop (argField w).toNat, rsp := some 0x00000000#32 })

/-- APPENDs with no other command between them leave the most recent `CAP` bytes of the window and the stream (derived: the spec
marks it as derived from R44 and R47). -/
def Obligations.AppendStreamKeepsLastCapacityBytes : Prop :=
  ∀ (bs : List Byte) (s : State), s.params.legal → Memory.wf s.params s.window →
    execAll (bs.map .append) s = .next { s with
      window := lastBytes s.params.capacity (s.window ++ bs),
      rsp := if bs = [] then s.rsp else some 0x00000000#32 }

/-- A controller that keeps `|W|` plus the bytes it appends within `CAP` loses none (derived from R207). -/
def Obligations.AppendsWithinCapacityLoseNothing : Prop :=
  ∀ (bs : List Byte) (s : State), s.window.length + bs.length ≤ s.params.capacity →
    ∃ t, execAll (bs.map .append) s = .next t ∧ t.window = s.window ++ bs

/-- Every command removes some bytes from the front of the window and adds at most APPEND's byte at the end, so that the byte formerly
at offset `i ≥ n` is at offset `i - n` (derived from R41, R42). -/
def Obligations.WindowOnlySlides : Prop :=
  ∀ (i : Instr) (s t : State), exec i s = .next t →
    ∃ n, n ≤ s.window.length ∧ t.window = s.window.drop n ++ addedByte i ∧
      ∀ k, n ≤ k → k < s.window.length → t.windowByte (k - n) = s.windowByte k

/-- The byte just appended is read back by PEEK at the newest offset (derived from R100, R101). -/
def Obligations.AppendedByteIsPeekedBack : Prop :=
  ∀ (b : Byte) (s : State), StateInv s →
    ∃ t, exec (.append b) s = .next t ∧ 1 ≤ t.window.length ∧
      exec (.peek (BitVec.ofNat 16 (t.window.length - 1))) t = .next { t with rsp := some (0#24 ++ b) }

/-- The circular layout "gives exactly the window of rule R44 and rule R45" (derived: 20_memory.md section 6 marks it as informative
and derived). -/
def Obligations.RingStorageRefinesTheWindow : Prop :=
  ∀ (cap : Nat) (r : RingStorage), r.ok cap →
    (ringWindow r).length = r.count ∧
    (∀ b, (ringAppend b r).ok cap ∧ ringWindow (ringAppend b r) = windowPush cap b (ringWindow r)) ∧
    (∀ n, n ≤ r.count → (ringDrop n r).ok cap ∧ ringWindow (ringDrop n r) = (ringWindow r).drop n)

/-- The multi-byte peek: the last PEEK of `PEEKN off, len` answers OUT_OF_RANGE exactly when `off + len` exceeds the occupancy (derived
from R103). -/
def Obligations.PeekNFailsExactlyPastOccupancy : Prop :=
  ∀ (off len : Nat) (s t : State), 1 ≤ len → off + len ≤ 65536 →
    exec (.peek (BitVec.ofNat 16 (off + len - 1))) s = .next t →
    (t.rsp.map rcField = some 1#4 ↔ s.window.length < off + len)

/-- FLUSH, RDOCC and then CONSUME of the count it answered, empties the window and touches nothing else (derived from R75). -/
def Obligations.FlushEmptiesTheWindow : Prop :=
  ∀ s : State, StateInv s →
    ∃ (t : State) (r : Word), exec flushFirst s = .next t ∧ t.rsp = some r ∧
      exec (flushSecond r) t = .next { s with window := [], rsp := some 0x00000000#32 }

/-! ## The frame scanner -/

/-- R123: with no marker in the window SCAN drops everything, or everything but the newest byte under RETAIN_LAST, and answers
NO_FRAME_YET. -/
def Obligations.ScanWithoutMarkerDropsTheWindow : Prop :=
  ∀ s : State, s.params.stx ∉ s.window →
    exec .scan s = .next { s with
      frame := none,
      window := if s.retainLast = true then s.window.drop (s.window.length - 1) else [],
      rsp := some 0x30000000#32 }

/-- R124: with a first marker whose header is not all there SCAN answers NO_FRAME_YET and changes nothing but FRAME_VALID. -/
def Obligations.ScanWaitsForTheHeader : Prop :=
  ∀ (s : State) (pre post : List Byte),
    s.window = pre ++ s.params.stx :: post → s.params.stx ∉ pre → post.length < 3 →
    exec .scan s = .next { s with frame := none, rsp := some 0x30000000#32 }

/-- R126: with a plausible length and a frame that is not all there SCAN answers NO_FRAME_YET and changes nothing but FRAME_VALID. -/
def Obligations.ScanWaitsForTheBody : Prop :=
  ∀ (s : State) (pre body : List Byte) (status packetType len : Byte),
    s.window = pre ++ s.params.stx :: status :: packetType :: len :: body → s.params.stx ∉ pre →
    pre.length + len.toNat + 6 ≤ s.params.capacity → body.length < len.toNat + 2 →
    exec .scan s = .next { s with frame := none, rsp := some 0x30000000#32 }

/-- R127: a marker whose declared length is implausible, or whose end byte is not `ETX`, is dropped with everything before it
and counted, and SCAN goes on as on the shortened window within the same command. -/
def Obligations.ScanResynchronisesPastSpuriousMarkers : Prop :=
  (∀ (s : State) (pre body : List Byte) (status packetType len : Byte),
    s.window = pre ++ s.params.stx :: status :: packetType :: len :: body → s.params.stx ∉ pre →
    s.params.capacity < pre.length + len.toNat + 6 →
    exec .scan s = exec .scan { s with
      window := status :: packetType :: len :: body, resyncCnt := s.resyncCnt + 1#16 }) ∧
  (∀ (s : State) (pre mid rest : List Byte) (status packetType len e : Byte),
    s.window = pre ++ s.params.stx :: status :: packetType :: len :: (mid ++ e :: rest) → s.params.stx ∉ pre →
    mid.length = len.toNat + 1 → pre.length + len.toNat + 6 ≤ s.params.capacity → e ≠ s.params.etx →
    exec .scan s = exec .scan { s with
      window := status :: packetType :: len :: (mid ++ e :: rest), resyncCnt := s.resyncCnt + 1#16 })

/-- R128 and R129: a complete frame is taken out of the window whatever its checksum says. With the right checksum it is held and answered
with FRAME_OK and FRAME_INFO; with a wrong one it is not held, the answer is CHECKSUM_MISMATCH, and no resynchronisation follows. -/
def Obligations.ScanExtractsAndValidatesTheFrame : Prop :=
  (∀ (s : State) (pre payload rest : List Byte) (status packetType len : Byte),
    s.params.stx ∉ pre → payload.length = len.toNat → pre.length + len.toNat + 6 ≤ s.params.capacity →
    s.window = pre ++ ((s.params.stx :: status :: packetType :: len :: payload) ++
      [sum8 (status :: packetType :: len :: payload), s.params.etx]) ++ rest →
    exec .scan s = .next { s with
      window := rest,
      frame := some ((s.params.stx :: status :: packetType :: len :: payload) ++
        [sum8 (status :: packetType :: len :: payload), s.params.etx]),
      rsp := some (0x4#4 ++ 0b0001#4 ++ status ++ packetType ++ len) }) ∧
  (∀ (s : State) (pre payload rest : List Byte) (status packetType len csum : Byte),
    s.params.stx ∉ pre → payload.length = len.toNat → pre.length + len.toNat + 6 ≤ s.params.capacity →
    csum ≠ sum8 (status :: packetType :: len :: payload) →
    s.window = pre ++ ((s.params.stx :: status :: packetType :: len :: payload) ++ [csum, s.params.etx]) ++ rest →
    exec .scan s = .next { s with window := rest, frame := none, rsp := some 0x50000000#32 })

/-- Whatever the window holds, SCAN ends with exactly one response, never writes CTRL, drops bytes from the front only, resynchronises
at most once for each byte dropped, and holds a frame exactly when it answers FRAME_OK with that frame's FRAME_INFO (derived from
R120, R130, R132). -/
def Obligations.ScanAlwaysEndsWithinTheResyncBound : Prop :=
  ∀ s : State, ∃ (t : State) (k n : Nat), exec .scan s = .next t ∧
    n ≤ s.window.length ∧ t.window = s.window.drop n ∧
    k ≤ n ∧ t.resyncCnt = s.resyncCnt + BitVec.ofNat 16 k ∧
    ((t.frame = none ∧ (t.rsp = some 0x30000000#32 ∨ t.rsp = some 0x50000000#32)) ∨
      ∃ F, t.frame = some F ∧ t.rsp = some (rspWord .frameOk (frameInfoOf F)) ∧ validate F = true) ∧
    t = { s with window := t.window, resyncCnt := t.resyncCnt, frame := t.frame, rsp := t.rsp }

/-- A SCAN repeated right after one that answered NO_FRAME_YET answers it again and changes nothing (derived from R123, R124, R126). -/
def Obligations.ScanAfterNoFrameYetChangesNothing : Prop :=
  ∀ s t : State, exec .scan s = .next t → t.rsp = some 0x30000000#32 → exec .scan t = .next t

/-- FRAME_INFO in a FRAME_OK response is FRAME_INFO as RDREG 4 then reads it (derived from R68, R130, R161). -/
def Obligations.FrameOkDataIsFrameInfo : Prop :=
  ∀ s t : State, exec .scan s = .next t → t.frameValid = true →
    t.rsp = some (rspWord .frameOk t.frameInfo) ∧
    exec (.rdreg 4#16) t = .next { t with rsp := some (rspWord .ok t.frameInfo) }

/-- Framing determinism: a valid frame fed byte by byte after bytes without a start marker, with SCANs anywhere between and room for
all of it, is extracted by the SCAN after its last byte and by none before it, with no resynchronisation (derived from R136; the
room hypothesis is stronger than its preconditions (b) and (c)). -/
def Obligations.FramingFindsExactlyTheFrame : Prop :=
  ∀ (s : State) (pre F : List Byte) (acts : List Instr) (last : Byte),
    s.frame = none → s.params.stx ∉ s.window → s.params.stx ∉ pre → FrameOk s.params F →
    s.window.length + pre.length + F.length ≤ s.params.capacity →
    (∀ i ∈ acts, i = .scan ∨ ∃ b, i = .append b) → appendedBytes acts ++ [last] = pre ++ F →
    (∀ k, ∃ t, execAll (acts.take k) s = .next t ∧ t.frame = none ∧ t.resyncCnt = s.resyncCnt) ∧
    ∃ t, execAll (acts ++ [.append last, .scan]) s = .next t ∧
      t.frame = some F ∧ t.window = [] ∧ t.resyncCnt = s.resyncCnt ∧
      t.rsp = some (rspWord .frameOk (frameInfoOf F))

/-! ## The checksum -/

/-- R150: `sum8` is the arithmetic sum of the bytes modulo 256, it does not depend on their order, and it can be computed byte by
byte. -/
def Obligations.Sum8IsTheSumModulo256 : Prop :=
  (∀ S : List Byte, (sum8 S).toNat = (S.map BitVec.toNat).sum % 256) ∧
  (∀ S T : List Byte, S.Perm T → sum8 S = sum8 T) ∧
  (∀ S : List Byte, sum8 S = S.foldl (fun acc b => acc + b) 0#8)

/-- R151: `validate` holds exactly of the sequences with a LENGTH byte that gives their size and a CHECKSUM byte equal to the sum of
STATUS to the end of PAYLOAD; the markers are not looked at. -/
def Obligations.ValidateHoldsExactlyForGoodChecksums : Prop :=
  ∀ F : List Byte, validate F = true ↔
    ∃ (stx status packetType len csum etx : Byte) (payload : List Byte),
      F = stx :: status :: packetType :: len :: (payload ++ [csum, etx]) ∧
      payload.length = len.toNat ∧ csum = sum8 (status :: packetType :: len :: payload)

/-- The frame built with `sum8` over STATUS to the end of PAYLOAD validates (derived: the spec marks its round trip as derived from R150
and R151). -/
def Obligations.ChecksumRoundTrip : Prop :=
  ∀ (stx etx status packetType : Byte) (payload : List Byte), payload.length ≤ 255 →
    validate ([stx, status, packetType, BitVec.ofNat 8 payload.length] ++ payload ++
      [sum8 ([status, packetType, BitVec.ofNat 8 payload.length] ++ payload), etx]) = true

/-- Changing exactly one byte between the markers of a valid frame makes `validate` false (derived: the spec marks it as derived from
R150 and R151). -/
def Obligations.SingleByteErrorIsDetected : Prop :=
  ∀ (F : List Byte) (i : Nat) (b : Byte), validate F = true →
    1 ≤ i → i + 1 < F.length → F[i]? ≠ some b → validate (F.set i b) = false

/-- Changes to STATUS, PACKET_TYPE and payload bytes that leave the sum alone pass, a reordering among them included; LENGTH is kept,
since R151 checks the size against it (derived from R155, entry 11). -/
def Obligations.MultiByteErrorsCanPass : Prop :=
  (∀ (stx etx csum len st ty st' ty' : Byte) (P P' : List Byte),
    validate (stx :: st :: ty :: len :: (P ++ [csum, etx])) = true → P'.length = P.length →
    sum8 (st' :: ty' :: P') = sum8 (st :: ty :: P) →
    validate (stx :: st' :: ty' :: len :: (P' ++ [csum, etx])) = true) ∧
  (∀ (stx etx csum len st ty st' ty' : Byte) (P P' : List Byte),
    validate (stx :: st :: ty :: len :: (P ++ [csum, etx])) = true →
    (st' :: ty' :: P').Perm (st :: ty :: P) →
    validate (stx :: st' :: ty' :: len :: (P' ++ [csum, etx])) = true)

/-! ## Frame read-out and registers -/

/-- READF reads a byte of the held frame and changes nothing, or answers OUT_OF_RANGE (derived from R160, for the decoded command). -/
def Obligations.ReadfReadsTheHeldFrame : Prop :=
  (∀ (i : Arg) (s : State) (F : List Byte) (h : i.toNat < F.length), s.frame = some F →
    exec (.readf i) s = .next { s with rsp := some (0#24 ++ F[i.toNat]) }) ∧
  (∀ (i : Arg) (s : State), (∀ F ∈ s.frame, F.length ≤ i.toNat) →
    exec (.readf i) s = .next { s with rsp := some 0x10000000#32 })

/-- R160, READF's pseudocode on the whole word. -/
def Obligations.ReadfWordFollowsItsPseudocode : Prop :=
  ∀ (w : Word) (s : State), opField w = 5#4 →
    runWord w s = .next (
      if rsvField w ≠ 0#12 then { s with rsp := some 0x20000000#32 }
      else if s.frameValid = false then { s with rsp := some 0x10000000#32 }
      else if ∀ F ∈ s.frame, F.length ≤ (argField w).toNat then { s with rsp := some 0x10000000#32 }
      else { s with rsp := (s.frame.bind (fun F => F[(argField w).toNat]?)).map (fun b => 0#24 ++ b) })

/-- R161: RDREG of the implemented registers answers their 28 bits and changes nothing, and of any other number ILLEGAL_CMD; on the whole
word, a nonzero RSV answers ILLEGAL_CMD and the register number is ARG. -/
def Obligations.RdregReadsTheRegisterMap : Prop :=
  ∀ s : State,
    exec (.rdreg 0#16) s = .next { s with rsp := some (0x0#4 ++ BitVec.ofNat 28 s.window.length) } ∧
    exec (.rdreg 1#16) s = .next { s with rsp := some (0#16 ++ s.params.cap) } ∧
    exec (.rdreg 2#16) s = .next { s with rsp := some (0#16 ++ s.resyncCnt) } ∧
    exec (.rdreg 3#16) s = .next { s with rsp := some (0#31 ++ BitVec.ofBool s.retainLast) } ∧
    (s.frame = none → exec (.rdreg 4#16) s = .next { s with rsp := some 0#32 }) ∧
    (∀ (b0 b1 b2 b3 : Byte) (tl : List Byte), s.frame = some (b0 :: b1 :: b2 :: b3 :: tl) →
      exec (.rdreg 4#16) s = .next { s with rsp := some (0x0#4 ++ 0b0001#4 ++ b1 ++ b2 ++ b3) }) ∧
    exec (.rdreg 5#16) s = .next { s with
      rsp := some (0x0#4 ++ 4#4 ++ s.params.posType ++ s.params.etx ++ s.params.stx) } ∧
    (∀ r : Arg, 6 ≤ r.toNat → exec (.rdreg r) s = .next { s with rsp := some 0x20000000#32 }) ∧
    ∀ w : Word, opField w = 6#4 →
      (rsvField w ≠ 0#12 → runWord w s = .next { s with rsp := some 0x20000000#32 }) ∧
      (rsvField w = 0#12 → runWord w s = exec (.rdreg (argField w)) s)

/-- OCC reads the occupancy exactly, in bits [15:0] with the rest 0 (derived from R27, R104). -/
def Obligations.OccReadsTheOccupancy : Prop :=
  ∀ s : State, StateInv s → ∃ (t : State) (r : Word), exec (.rdreg 0#16) s = .next t ∧ t.rsp = some r ∧
    r.toNat = s.window.length ∧ r.toNat < 65536

/-- WRCTRL sets CTRL.RETAIN_LAST and nothing else (derived from R163, for the decoded command). -/
def Obligations.WrctrlSetsRetainLast : Prop :=
  ∀ (v : Bool) (s : State), exec (.wrctrl v) s = .next { s with retainLast := v, rsp := some 0x00000000#32 }

/-- R163, WRCTRL's pseudocode on the whole word. -/
def Obligations.WrctrlWordFollowsItsPseudocode : Prop :=
  ∀ (w : Word) (s : State), opField w = 7#4 →
    runWord w s = .next (
      if rsvField w ≠ 0#12 ∨ w.extractLsb' 1 15 ≠ 0#15 then { s with rsp := some 0x20000000#32 }
      else { s with retainLast := w.getLsbD 0, rsp := some 0x00000000#32 })

/-! ## Whole-machine rules -/

/-- R67: which commands produce which result code; 0x6..0xF are never produced. -/
def Obligations.ResultCodesArePerCommand : Prop :=
  ∀ (w : Word) (s t : State), runWord w s = .next t →
    ∃ r, t.rsp = some r ∧
      ((rcField r = 0#4 ∧ opField w ∈ [1#4, 3#4, 4#4, 5#4, 6#4, 7#4]) ∨
        (rcField r = 1#4 ∧ opField w ∈ [3#4, 4#4, 5#4]) ∨
        (rcField r = 2#4 ∧ (IllegalEncoding w ∨ (opField w = 6#4 ∧ 6 ≤ (argField w).toNat))) ∨
        (rcField r ∈ [3#4, 4#4, 5#4] ∧ opField w = 2#4))

/-- R184: an error changes no state at all and carries DATA = 0, the SPF is ready again once its response is delivered, and a later
command runs exactly as if the failed one had not been sent. -/
def Obligations.ErrorsChangeNothing : Prop :=
  ∀ (w : Word) (s t : State) (r : Word), runWord w s = .next t → t.rsp = some r →
    rcField r = 1#4 ∨ rcField r = 2#4 →
      dataField r = 0#28 ∧ t = { s with rsp := some r } ∧
      (t.rst = false → (t.deliver r).cmdReady = true) ∧ ∀ w' : Word, runWord w' t = runWord w' s

/-- PEEK, READF and RDREG have no side effect: the response is all they change, and repeating one gives the same response (derived
from R50). -/
def Obligations.ReadCommandsAreIdempotent : Prop :=
  ∀ (i : Instr) (s t : State),
    (∃ off, i = .peek off) ∨ (∃ k, i = .readf k) ∨ (∃ r, i = .rdreg r) →
    exec i s = .next t → t = { s with rsp := t.rsp } ∧ exec i t = .next t

/-- Only SCAN disturbs the held frame or RESYNC_CNT, and only WRCTRL writes CTRL (derived from R20, R26, R29, R206). -/
def Obligations.OnlyScanDisturbsTheFrame : Prop :=
  ∀ (i : Instr) (s t : State), exec i s = .next t →
    (i ≠ .scan → t.frame = s.frame ∧ t.resyncCnt = s.resyncCnt) ∧
    ((∀ v, i ≠ .wrctrl v) → t.retainLast = s.retainLast)

/-- R164: no step writes a parameter, so CAPACITY and CONST read the same in every state. -/
def Obligations.ConstantsReadTheSameInEveryState : Prop :=
  ∀ s t : State, step s = .next t →
    t.params = s.params ∧ t.readReg 1#16 = s.readReg 1#16 ∧ t.readReg 5#16 = s.readReg 5#16

/-! ## Reset and invariants -/

/-- R35: the reset values, for every parameter set. -/
def Obligations.ResetLeavesTheResetValues : Prop :=
  (∀ p : Params,
    (State.resetWith p).window = [] ∧ (State.resetWith p).resyncCnt = 0#16 ∧ (State.resetWith p).retainLast = false ∧
    (State.resetWith p).frame = none ∧ (State.resetWith p).inFlight = none ∧ (State.resetWith p).rsp = none ∧
    (State.resetWith p).seqIndex = 0 ∧ (State.resetWith p).params = p ∧
    exec (.rdreg 0#16) (State.resetWith p) = .next { State.resetWith p with rsp := some 0x00000000#32 } ∧
    exec (.rdreg 1#16) (State.resetWith p) = .next { State.resetWith p with rsp := some (0#16 ++ p.cap) } ∧
    exec (.rdreg 5#16) (State.resetWith p) = .next { State.resetWith p with
      rsp := some (0x0#4 ++ 4#4 ++ p.posType ++ p.etx ++ p.stx) }) ∧
  State.reset = State.resetWith State.reset.params

/-- The reset state meets the invariants of R36 and of the ports, for every legal parameter set, and `State.reset` is one of these
(derived from R35, R36 and, for the ports, R61, R66, R77). The port invariant is the model's in two points: a response is pending
exactly while a command is in flight, without LATENCY (entry 3), and the record of responses is empty at reset (entry 5). -/
def Obligations.ResetMeetsTheInvariants : Prop :=
  (∀ p : Params, p.legal → StateInv (State.resetWith p) ∧ PortInv (State.resetWith p)) ∧
  StateInv State.reset ∧ PortInv State.reset

/-- Every step keeps the invariant "In every reachable state: `|W| <= CAP`; ..." (derived: the spec marks R36 as derived; the legal range
of `CAP` is R8's). -/
def Obligations.StepKeepsTheInvariant : Prop :=
  ∀ s t : State, StateInv s → step s = .next t → StateInv t

/-- Every step keeps the port invariant: one response per command accepted since reset, in order, with at most one outstanding (derived
from R61, R66, R77). -/
def Obligations.StepKeepsThePortInvariant : Prop :=
  ∀ s t : State, PortInv s → step s = .next t →
    PortInv t ∧ (s.rst = false → s.rspOut <+: t.rspOut)

/-! ## A controller that stalls, and fairness -/

/-- An accepted command gets its response after finitely many edges, provided `rsp_ready` is high at some edge after the one that
accepts it and `rst` stays low. The response is that of the command's own run, it is delivered once, and by no earlier edge (derived
from R212, R61). That one high edge suffices, whichever it is, is the model's, where a response is offered from the edge after acceptance
on, without LATENCY: entry 3. FairControllerGetsEveryResponseInOrder assumes fairness instead. -/
def Obligations.AcceptedCommandIsAnsweredOnceRspReadyRises : Prop :=
  ∀ (ready : Nat → Bool) (s : State) (w : Word) (rest : List Word),
    s.cmdReady = true → s.cmdIn = w :: rest → (∃ m, 1 ≤ m ∧ ready m = true) →
    ∃ (u t : State) (r : Word) (n : Nat),
      runWord w (s.accept w rest) = .next u ∧ u.rsp = some r ∧
      runEdges ready n s = .next t ∧ t.rspOut = s.rspOut ++ [r] ∧
      t.cmdReady = true ∧ t.cmdIn = rest ∧ t.seqIndex = s.seqIndex + 1 ∧
      ∀ k, k < n → ∃ v, runEdges ready k s = .next v ∧ v.rspOut = s.rspOut

/-- A pending response stays offered and unchanged, and no state changes, for as long as `rsp_ready` is low, and the first edge at
which it is high delivers it (derived from R61, R212). -/
def Obligations.PendingResponseSurvivesAnyStall : Prop :=
  ∀ (ready : Nat → Bool) (s : State) (r : Word) (n : Nat),
    s.rst = false → s.inFlight.isSome = true → s.rsp = some r →
    ready n = true → (∀ k, k < n → ready k = false) →
    (∀ k, k ≤ n → ∃ v, runEdges ready k s = .next v ∧ v.rspValid = true ∧ v.rsp = some r ∧ v.cmdReady = false ∧
      { v with rspReady := s.rspReady } = s) ∧
    runEdges ready (n + 1) s = .next { s with
      rspReady := true, rsp := none, inFlight := none, rspOut := s.rspOut ++ [r] }

/-- Under a fair controller every word of a stream is accepted and answered after finitely many edges, with the responses in the
order of the words, each reflecting the words before it and nothing after (derived from R212, R77, R66, R52). -/
def Obligations.FairControllerGetsEveryResponseInOrder : Prop :=
  ∀ (ready : Nat → Bool) (ws : List Word) (s : State), Fair ready → s.cmdReady = true → s.cmdIn = ws →
    ∃ (n : Nat) (t : State), runEdges ready n s = .next t ∧
      t.rspOut = s.rspOut ++ answers ws s ∧ (answers ws s).length = ws.length ∧
      t.cmdIn = [] ∧ t.seqIndex = s.seqIndex + ws.length ∧ t.cmdReady = true
end

