-- ==== Sys2Proof/Laws/PerInstr.lean ====
section
/-! SUPPORT. The per-instruction families of LAWS.json: each instruction's word satisfies its row of the opcode map, and its fields are
well formed (30_encoding.md R63, R74). -/

namespace Sys2Proof

/-- ARG and RSV masked away leave the opcode. -/
theorem wordOf_and_high (op : BitVec 4) (a : Arg) : wordOf op a &&& 0xFFFF0000#32 = wordOf op 0#16 := by
  apply BitVec.eq_of_getLsbD_eq
  intro i hi
  simp only [wordOf, BitVec.getLsbD_and, BitVec.getLsbD_append]
  interval_cases i <;> simp

/-- An ARG whose bits [15:8] are 0 is kept out of the comparison from bit 8 up. -/
theorem wordOf_byte_and_mask (op : BitVec 4) (b : Byte) :
    wordOf op (0#8 ++ b) &&& 0xFFFFFF00#32 = wordOf op 0#16 := by
  apply BitVec.eq_of_getLsbD_eq
  intro i hi
  simp only [wordOf, BitVec.getLsbD_and, BitVec.getLsbD_append]
  interval_cases i <;> simp

end Sys2Proof

/-! ### The word of each instruction satisfies its row: `w & mask = match` (R63) -/

namespace Sys2Proof.Laws.EncodesToItsRow

/-- The instruction's word satisfies the row of the opcode map with its mnemonic. -/
def Statement (i : Instr) : Prop :=
  ∃ row ∈ opcodeTable, row.mnemonic = i.mnemonic ∧ row.holds (encode i)

theorem append (b : Byte) : Statement (.append b) :=
  ⟨{ mnemonic := "APPEND", pattern := 0x10000000#32, mask := 0xFFFFFF00#32 }, by simp [opcodeTable], rfl,
    wordOf_byte_and_mask 1#4 b⟩

theorem scan : Statement .scan :=
  ⟨{ mnemonic := "SCAN", pattern := 0x20000000#32, mask := 0xFFFFFFFF#32 }, by simp [opcodeTable], rfl, rfl⟩

theorem peek (off : Arg) : Statement (.peek off) :=
  ⟨{ mnemonic := "PEEK", pattern := 0x30000000#32, mask := 0xFFFF0000#32 }, by simp [opcodeTable], rfl,
    wordOf_and_high 3#4 off⟩

theorem consume (n : Arg) : Statement (.consume n) :=
  ⟨{ mnemonic := "CONSUME", pattern := 0x40000000#32, mask := 0xFFFF0000#32 }, by simp [opcodeTable], rfl,
    wordOf_and_high 4#4 n⟩

theorem readf (i : Arg) : Statement (.readf i) :=
  ⟨{ mnemonic := "READF", pattern := 0x50000000#32, mask := 0xFFFF0000#32 }, by simp [opcodeTable], rfl,
    wordOf_and_high 5#4 i⟩

theorem rdreg (r : Arg) : Statement (.rdreg r) :=
  ⟨{ mnemonic := "RDREG", pattern := 0x60000000#32, mask := 0xFFFF0000#32 }, by simp [opcodeTable], rfl,
    wordOf_and_high 6#4 r⟩

theorem wrctrl (v : Bool) : Statement (.wrctrl v) :=
  ⟨{ mnemonic := "WRCTRL", pattern := 0x70000000#32, mask := 0xFFFFFFFE#32 }, by simp [opcodeTable], rfl,
    by cases v <;> rfl⟩

end Sys2Proof.Laws.EncodesToItsRow

/-! ### The fields of each instruction are well formed (R63, R74) -/

namespace Sys2Proof.Laws.WellFormedFields

/-- The instruction's opcode is assigned and its operand is in its field's range. -/
def Statement (i : Instr) : Prop := i.wellFormed = true

theorem append (b : Byte) : Statement (.append b) := by
  have := b.isLt
  simp [Statement, Instr.wellFormed, commandWellFormed, opcodeAssigned, operandInRange, operandBound, Instr.opcode,
    Instr.operand]
  omega

theorem scan : Statement .scan := rfl

theorem peek (off : Arg) : Statement (.peek off) := by
  have := off.isLt
  simp [Statement, Instr.wellFormed, commandWellFormed, opcodeAssigned, operandInRange, operandBound, Instr.opcode,
    Instr.operand]
  omega

theorem consume (n : Arg) : Statement (.consume n) := peek n

theorem readf (i : Arg) : Statement (.readf i) := peek i

theorem rdreg (r : Arg) : Statement (.rdreg r) := peek r

theorem wrctrl (v : Bool) : Statement (.wrctrl v) := by
  cases v <;> rfl

end Sys2Proof.Laws.WellFormedFields
end

