-- ==== Sys2Proof/Laws/State.lean ====
section
/-! SUPPORT. One lemma per field per update of State, each true by rfl, so that no later proof unfolds a record update. -/

namespace Sys2Proof.Machine

/-! ### State.winAppend -/

@[simp] theorem State.winAppend_window (b : Byte) (s : State) : (s.winAppend b).window = windowPush s.params.capacity b s.window := rfl
@[simp] theorem State.winAppend_resyncCnt (b : Byte) (s : State) : (s.winAppend b).resyncCnt = s.resyncCnt := rfl
@[simp] theorem State.winAppend_retainLast (b : Byte) (s : State) : (s.winAppend b).retainLast = s.retainLast := rfl
@[simp] theorem State.winAppend_frame (b : Byte) (s : State) : (s.winAppend b).frame = s.frame := rfl
@[simp] theorem State.winAppend_seqIndex (b : Byte) (s : State) : (s.winAppend b).seqIndex = s.seqIndex := rfl
@[simp] theorem State.winAppend_inFlight (b : Byte) (s : State) : (s.winAppend b).inFlight = s.inFlight := rfl
@[simp] theorem State.winAppend_rsp (b : Byte) (s : State) : (s.winAppend b).rsp = s.rsp := rfl
@[simp] theorem State.winAppend_params (b : Byte) (s : State) : (s.winAppend b).params = s.params := rfl
@[simp] theorem State.winAppend_rst (b : Byte) (s : State) : (s.winAppend b).rst = s.rst := rfl
@[simp] theorem State.winAppend_cmdIn (b : Byte) (s : State) : (s.winAppend b).cmdIn = s.cmdIn := rfl
@[simp] theorem State.winAppend_rspReady (b : Byte) (s : State) : (s.winAppend b).rspReady = s.rspReady := rfl
@[simp] theorem State.winAppend_rspOut (b : Byte) (s : State) : (s.winAppend b).rspOut = s.rspOut := rfl

/-! ### State.winDrop -/

@[simp] theorem State.winDrop_window (n : Nat) (s : State) : (s.winDrop n).window = s.window.drop n := rfl
@[simp] theorem State.winDrop_resyncCnt (n : Nat) (s : State) : (s.winDrop n).resyncCnt = s.resyncCnt := rfl
@[simp] theorem State.winDrop_retainLast (n : Nat) (s : State) : (s.winDrop n).retainLast = s.retainLast := rfl
@[simp] theorem State.winDrop_frame (n : Nat) (s : State) : (s.winDrop n).frame = s.frame := rfl
@[simp] theorem State.winDrop_seqIndex (n : Nat) (s : State) : (s.winDrop n).seqIndex = s.seqIndex := rfl
@[simp] theorem State.winDrop_inFlight (n : Nat) (s : State) : (s.winDrop n).inFlight = s.inFlight := rfl
@[simp] theorem State.winDrop_rsp (n : Nat) (s : State) : (s.winDrop n).rsp = s.rsp := rfl
@[simp] theorem State.winDrop_params (n : Nat) (s : State) : (s.winDrop n).params = s.params := rfl
@[simp] theorem State.winDrop_rst (n : Nat) (s : State) : (s.winDrop n).rst = s.rst := rfl
@[simp] theorem State.winDrop_cmdIn (n : Nat) (s : State) : (s.winDrop n).cmdIn = s.cmdIn := rfl
@[simp] theorem State.winDrop_rspReady (n : Nat) (s : State) : (s.winDrop n).rspReady = s.rspReady := rfl
@[simp] theorem State.winDrop_rspOut (n : Nat) (s : State) : (s.winDrop n).rspOut = s.rspOut := rfl

/-! ### State.countResync -/

@[simp] theorem State.countResync_window (s : State) : s.countResync.window = s.window := rfl
@[simp] theorem State.countResync_resyncCnt (s : State) : s.countResync.resyncCnt = s.resyncCnt + 1#16 := rfl
@[simp] theorem State.countResync_retainLast (s : State) : s.countResync.retainLast = s.retainLast := rfl
@[simp] theorem State.countResync_frame (s : State) : s.countResync.frame = s.frame := rfl
@[simp] theorem State.countResync_seqIndex (s : State) : s.countResync.seqIndex = s.seqIndex := rfl
@[simp] theorem State.countResync_inFlight (s : State) : s.countResync.inFlight = s.inFlight := rfl
@[simp] theorem State.countResync_rsp (s : State) : s.countResync.rsp = s.rsp := rfl
@[simp] theorem State.countResync_params (s : State) : s.countResync.params = s.params := rfl
@[simp] theorem State.countResync_rst (s : State) : s.countResync.rst = s.rst := rfl
@[simp] theorem State.countResync_cmdIn (s : State) : s.countResync.cmdIn = s.cmdIn := rfl
@[simp] theorem State.countResync_rspReady (s : State) : s.countResync.rspReady = s.rspReady := rfl
@[simp] theorem State.countResync_rspOut (s : State) : s.countResync.rspOut = s.rspOut := rfl

/-! ### State.clearFrame -/

@[simp] theorem State.clearFrame_window (s : State) : s.clearFrame.window = s.window := rfl
@[simp] theorem State.clearFrame_resyncCnt (s : State) : s.clearFrame.resyncCnt = s.resyncCnt := rfl
@[simp] theorem State.clearFrame_retainLast (s : State) : s.clearFrame.retainLast = s.retainLast := rfl
@[simp] theorem State.clearFrame_frame (s : State) : s.clearFrame.frame = none := rfl
@[simp] theorem State.clearFrame_seqIndex (s : State) : s.clearFrame.seqIndex = s.seqIndex := rfl
@[simp] theorem State.clearFrame_inFlight (s : State) : s.clearFrame.inFlight = s.inFlight := rfl
@[simp] theorem State.clearFrame_rsp (s : State) : s.clearFrame.rsp = s.rsp := rfl
@[simp] theorem State.clearFrame_params (s : State) : s.clearFrame.params = s.params := rfl
@[simp] theorem State.clearFrame_rst (s : State) : s.clearFrame.rst = s.rst := rfl
@[simp] theorem State.clearFrame_cmdIn (s : State) : s.clearFrame.cmdIn = s.cmdIn := rfl
@[simp] theorem State.clearFrame_rspReady (s : State) : s.clearFrame.rspReady = s.rspReady := rfl
@[simp] theorem State.clearFrame_rspOut (s : State) : s.clearFrame.rspOut = s.rspOut := rfl

/-! ### State.holdFrame -/

@[simp] theorem State.holdFrame_window (F : List Byte) (s : State) : (s.holdFrame F).window = s.window := rfl
@[simp] theorem State.holdFrame_resyncCnt (F : List Byte) (s : State) : (s.holdFrame F).resyncCnt = s.resyncCnt := rfl
@[simp] theorem State.holdFrame_retainLast (F : List Byte) (s : State) : (s.holdFrame F).retainLast = s.retainLast := rfl
@[simp] theorem State.holdFrame_frame (F : List Byte) (s : State) : (s.holdFrame F).frame = some F := rfl
@[simp] theorem State.holdFrame_seqIndex (F : List Byte) (s : State) : (s.holdFrame F).seqIndex = s.seqIndex := rfl
@[simp] theorem State.holdFrame_inFlight (F : List Byte) (s : State) : (s.holdFrame F).inFlight = s.inFlight := rfl
@[simp] theorem State.holdFrame_rsp (F : List Byte) (s : State) : (s.holdFrame F).rsp = s.rsp := rfl
@[simp] theorem State.holdFrame_params (F : List Byte) (s : State) : (s.holdFrame F).params = s.params := rfl
@[simp] theorem State.holdFrame_rst (F : List Byte) (s : State) : (s.holdFrame F).rst = s.rst := rfl
@[simp] theorem State.holdFrame_cmdIn (F : List Byte) (s : State) : (s.holdFrame F).cmdIn = s.cmdIn := rfl
@[simp] theorem State.holdFrame_rspReady (F : List Byte) (s : State) : (s.holdFrame F).rspReady = s.rspReady := rfl
@[simp] theorem State.holdFrame_rspOut (F : List Byte) (s : State) : (s.holdFrame F).rspOut = s.rspOut := rfl

/-! ### State.setRetain -/

@[simp] theorem State.setRetain_window (v : Bool) (s : State) : (s.setRetain v).window = s.window := rfl
@[simp] theorem State.setRetain_resyncCnt (v : Bool) (s : State) : (s.setRetain v).resyncCnt = s.resyncCnt := rfl
@[simp] theorem State.setRetain_retainLast (v : Bool) (s : State) : (s.setRetain v).retainLast = v := rfl
@[simp] theorem State.setRetain_frame (v : Bool) (s : State) : (s.setRetain v).frame = s.frame := rfl
@[simp] theorem State.setRetain_seqIndex (v : Bool) (s : State) : (s.setRetain v).seqIndex = s.seqIndex := rfl
@[simp] theorem State.setRetain_inFlight (v : Bool) (s : State) : (s.setRetain v).inFlight = s.inFlight := rfl
@[simp] theorem State.setRetain_rsp (v : Bool) (s : State) : (s.setRetain v).rsp = s.rsp := rfl
@[simp] theorem State.setRetain_params (v : Bool) (s : State) : (s.setRetain v).params = s.params := rfl
@[simp] theorem State.setRetain_rst (v : Bool) (s : State) : (s.setRetain v).rst = s.rst := rfl
@[simp] theorem State.setRetain_cmdIn (v : Bool) (s : State) : (s.setRetain v).cmdIn = s.cmdIn := rfl
@[simp] theorem State.setRetain_rspReady (v : Bool) (s : State) : (s.setRetain v).rspReady = s.rspReady := rfl
@[simp] theorem State.setRetain_rspOut (v : Bool) (s : State) : (s.setRetain v).rspOut = s.rspOut := rfl

/-! ### State.respond -/

@[simp] theorem State.respond_window (rc : ResultCode) (d : Data) (s : State) : (s.respond rc d).window = s.window := rfl
@[simp] theorem State.respond_resyncCnt (rc : ResultCode) (d : Data) (s : State) : (s.respond rc d).resyncCnt = s.resyncCnt := rfl
@[simp] theorem State.respond_retainLast (rc : ResultCode) (d : Data) (s : State) : (s.respond rc d).retainLast = s.retainLast := rfl
@[simp] theorem State.respond_frame (rc : ResultCode) (d : Data) (s : State) : (s.respond rc d).frame = s.frame := rfl
@[simp] theorem State.respond_seqIndex (rc : ResultCode) (d : Data) (s : State) : (s.respond rc d).seqIndex = s.seqIndex := rfl
@[simp] theorem State.respond_inFlight (rc : ResultCode) (d : Data) (s : State) : (s.respond rc d).inFlight = s.inFlight := rfl
@[simp] theorem State.respond_rsp (rc : ResultCode) (d : Data) (s : State) : (s.respond rc d).rsp = some (rspWord rc d) := rfl
@[simp] theorem State.respond_params (rc : ResultCode) (d : Data) (s : State) : (s.respond rc d).params = s.params := rfl
@[simp] theorem State.respond_rst (rc : ResultCode) (d : Data) (s : State) : (s.respond rc d).rst = s.rst := rfl
@[simp] theorem State.respond_cmdIn (rc : ResultCode) (d : Data) (s : State) : (s.respond rc d).cmdIn = s.cmdIn := rfl
@[simp] theorem State.respond_rspReady (rc : ResultCode) (d : Data) (s : State) : (s.respond rc d).rspReady = s.rspReady := rfl
@[simp] theorem State.respond_rspOut (rc : ResultCode) (d : Data) (s : State) : (s.respond rc d).rspOut = s.rspOut := rfl

/-! ### State.raiseError -/

@[simp] theorem State.raiseError_window (e : ResultCode) (s : State) : (s.raiseError e).window = s.window := rfl
@[simp] theorem State.raiseError_resyncCnt (e : ResultCode) (s : State) : (s.raiseError e).resyncCnt = s.resyncCnt := rfl
@[simp] theorem State.raiseError_retainLast (e : ResultCode) (s : State) : (s.raiseError e).retainLast = s.retainLast := rfl
@[simp] theorem State.raiseError_frame (e : ResultCode) (s : State) : (s.raiseError e).frame = s.frame := rfl
@[simp] theorem State.raiseError_seqIndex (e : ResultCode) (s : State) : (s.raiseError e).seqIndex = s.seqIndex := rfl
@[simp] theorem State.raiseError_inFlight (e : ResultCode) (s : State) : (s.raiseError e).inFlight = s.inFlight := rfl
@[simp] theorem State.raiseError_rsp (e : ResultCode) (s : State) : (s.raiseError e).rsp = some (rspWord e 0#28) := rfl
@[simp] theorem State.raiseError_params (e : ResultCode) (s : State) : (s.raiseError e).params = s.params := rfl
@[simp] theorem State.raiseError_rst (e : ResultCode) (s : State) : (s.raiseError e).rst = s.rst := rfl
@[simp] theorem State.raiseError_cmdIn (e : ResultCode) (s : State) : (s.raiseError e).cmdIn = s.cmdIn := rfl
@[simp] theorem State.raiseError_rspReady (e : ResultCode) (s : State) : (s.raiseError e).rspReady = s.rspReady := rfl
@[simp] theorem State.raiseError_rspOut (e : ResultCode) (s : State) : (s.raiseError e).rspOut = s.rspOut := rfl

/-! ### State.accept -/

@[simp] theorem State.accept_window (w : Word) (rest : List Word) (s : State) : (s.accept w rest).window = s.window := rfl
@[simp] theorem State.accept_resyncCnt (w : Word) (rest : List Word) (s : State) : (s.accept w rest).resyncCnt = s.resyncCnt := rfl
@[simp] theorem State.accept_retainLast (w : Word) (rest : List Word) (s : State) : (s.accept w rest).retainLast = s.retainLast := rfl
@[simp] theorem State.accept_frame (w : Word) (rest : List Word) (s : State) : (s.accept w rest).frame = s.frame := rfl
@[simp] theorem State.accept_seqIndex (w : Word) (rest : List Word) (s : State) : (s.accept w rest).seqIndex = s.seqIndex + 1 := rfl
@[simp] theorem State.accept_inFlight (w : Word) (rest : List Word) (s : State) : (s.accept w rest).inFlight = some w := rfl
@[simp] theorem State.accept_rsp (w : Word) (rest : List Word) (s : State) : (s.accept w rest).rsp = s.rsp := rfl
@[simp] theorem State.accept_params (w : Word) (rest : List Word) (s : State) : (s.accept w rest).params = s.params := rfl
@[simp] theorem State.accept_rst (w : Word) (rest : List Word) (s : State) : (s.accept w rest).rst = s.rst := rfl
@[simp] theorem State.accept_cmdIn (w : Word) (rest : List Word) (s : State) : (s.accept w rest).cmdIn = rest := rfl
@[simp] theorem State.accept_rspReady (w : Word) (rest : List Word) (s : State) : (s.accept w rest).rspReady = s.rspReady := rfl
@[simp] theorem State.accept_rspOut (w : Word) (rest : List Word) (s : State) : (s.accept w rest).rspOut = s.rspOut := rfl

/-! ### State.deliver -/

@[simp] theorem State.deliver_window (r : Word) (s : State) : (s.deliver r).window = s.window := rfl
@[simp] theorem State.deliver_resyncCnt (r : Word) (s : State) : (s.deliver r).resyncCnt = s.resyncCnt := rfl
@[simp] theorem State.deliver_retainLast (r : Word) (s : State) : (s.deliver r).retainLast = s.retainLast := rfl
@[simp] theorem State.deliver_frame (r : Word) (s : State) : (s.deliver r).frame = s.frame := rfl
@[simp] theorem State.deliver_seqIndex (r : Word) (s : State) : (s.deliver r).seqIndex = s.seqIndex := rfl
@[simp] theorem State.deliver_inFlight (r : Word) (s : State) : (s.deliver r).inFlight = none := rfl
@[simp] theorem State.deliver_rsp (r : Word) (s : State) : (s.deliver r).rsp = none := rfl
@[simp] theorem State.deliver_params (r : Word) (s : State) : (s.deliver r).params = s.params := rfl
@[simp] theorem State.deliver_rst (r : Word) (s : State) : (s.deliver r).rst = s.rst := rfl
@[simp] theorem State.deliver_cmdIn (r : Word) (s : State) : (s.deliver r).cmdIn = s.cmdIn := rfl
@[simp] theorem State.deliver_rspReady (r : Word) (s : State) : (s.deliver r).rspReady = s.rspReady := rfl
@[simp] theorem State.deliver_rspOut (r : Word) (s : State) : (s.deliver r).rspOut = s.rspOut ++ [r] := rfl

/-! ### State.resync -/

@[simp] theorem State.resync_window (start : Nat) (s : State) : (s.resync start).window = s.window.drop (start + 1) := rfl
@[simp] theorem State.resync_resyncCnt (start : Nat) (s : State) : (s.resync start).resyncCnt = s.resyncCnt + 1#16 := rfl
@[simp] theorem State.resync_retainLast (start : Nat) (s : State) : (s.resync start).retainLast = s.retainLast := rfl
@[simp] theorem State.resync_frame (start : Nat) (s : State) : (s.resync start).frame = s.frame := rfl
@[simp] theorem State.resync_seqIndex (start : Nat) (s : State) : (s.resync start).seqIndex = s.seqIndex := rfl
@[simp] theorem State.resync_inFlight (start : Nat) (s : State) : (s.resync start).inFlight = s.inFlight := rfl
@[simp] theorem State.resync_rsp (start : Nat) (s : State) : (s.resync start).rsp = s.rsp := rfl
@[simp] theorem State.resync_params (start : Nat) (s : State) : (s.resync start).params = s.params := rfl
@[simp] theorem State.resync_rst (start : Nat) (s : State) : (s.resync start).rst = s.rst := rfl
@[simp] theorem State.resync_cmdIn (start : Nat) (s : State) : (s.resync start).cmdIn = s.cmdIn := rfl
@[simp] theorem State.resync_rspReady (start : Nat) (s : State) : (s.resync start).rspReady = s.rspReady := rfl
@[simp] theorem State.resync_rspOut (start : Nat) (s : State) : (s.resync start).rspOut = s.rspOut := rfl

/-! ### State.resetEdge -/

@[simp] theorem State.resetEdge_window (s : State) : s.resetEdge.window = [] := rfl
@[simp] theorem State.resetEdge_resyncCnt (s : State) : s.resetEdge.resyncCnt = 0#16 := rfl
@[simp] theorem State.resetEdge_retainLast (s : State) : s.resetEdge.retainLast = false := rfl
@[simp] theorem State.resetEdge_frame (s : State) : s.resetEdge.frame = none := rfl
@[simp] theorem State.resetEdge_seqIndex (s : State) : s.resetEdge.seqIndex = 0 := rfl
@[simp] theorem State.resetEdge_inFlight (s : State) : s.resetEdge.inFlight = none := rfl
@[simp] theorem State.resetEdge_rsp (s : State) : s.resetEdge.rsp = none := rfl
@[simp] theorem State.resetEdge_params (s : State) : s.resetEdge.params = s.params := rfl
@[simp] theorem State.resetEdge_rst (s : State) : s.resetEdge.rst = s.rst := rfl
@[simp] theorem State.resetEdge_cmdIn (s : State) : s.resetEdge.cmdIn = s.cmdIn := rfl
@[simp] theorem State.resetEdge_rspReady (s : State) : s.resetEdge.rspReady = s.rspReady := rfl
@[simp] theorem State.resetEdge_rspOut (s : State) : s.resetEdge.rspOut = [] := rfl

/-! ### State.driveRspReady -/

@[simp] theorem State.driveRspReady_window (q : Bool) (s : State) : (s.driveRspReady q).window = s.window := rfl
@[simp] theorem State.driveRspReady_resyncCnt (q : Bool) (s : State) : (s.driveRspReady q).resyncCnt = s.resyncCnt := rfl
@[simp] theorem State.driveRspReady_retainLast (q : Bool) (s : State) : (s.driveRspReady q).retainLast = s.retainLast := rfl
@[simp] theorem State.driveRspReady_frame (q : Bool) (s : State) : (s.driveRspReady q).frame = s.frame := rfl
@[simp] theorem State.driveRspReady_seqIndex (q : Bool) (s : State) : (s.driveRspReady q).seqIndex = s.seqIndex := rfl
@[simp] theorem State.driveRspReady_inFlight (q : Bool) (s : State) : (s.driveRspReady q).inFlight = s.inFlight := rfl
@[simp] theorem State.driveRspReady_rsp (q : Bool) (s : State) : (s.driveRspReady q).rsp = s.rsp := rfl
@[simp] theorem State.driveRspReady_params (q : Bool) (s : State) : (s.driveRspReady q).params = s.params := rfl
@[simp] theorem State.driveRspReady_rst (q : Bool) (s : State) : (s.driveRspReady q).rst = s.rst := rfl
@[simp] theorem State.driveRspReady_cmdIn (q : Bool) (s : State) : (s.driveRspReady q).cmdIn = s.cmdIn := rfl
@[simp] theorem State.driveRspReady_rspReady (q : Bool) (s : State) : (s.driveRspReady q).rspReady = q := rfl
@[simp] theorem State.driveRspReady_rspOut (q : Bool) (s : State) : (s.driveRspReady q).rspOut = s.rspOut := rfl
@[simp] theorem State.driveRspReady_cmdReady (q : Bool) (s : State) : (s.driveRspReady q).cmdReady = s.cmdReady := rfl
@[simp] theorem State.driveRspReady_rspValid (q : Bool) (s : State) : (s.driveRspReady q).rspValid = s.rspValid := rfl

/-! ### State.resetWith -/

@[simp] theorem State.resetWith_window (p : Params) : (State.resetWith p).window = [] := rfl
@[simp] theorem State.resetWith_resyncCnt (p : Params) : (State.resetWith p).resyncCnt = 0#16 := rfl
@[simp] theorem State.resetWith_retainLast (p : Params) : (State.resetWith p).retainLast = false := rfl
@[simp] theorem State.resetWith_frame (p : Params) : (State.resetWith p).frame = none := rfl
@[simp] theorem State.resetWith_seqIndex (p : Params) : (State.resetWith p).seqIndex = 0 := rfl
@[simp] theorem State.resetWith_inFlight (p : Params) : (State.resetWith p).inFlight = none := rfl
@[simp] theorem State.resetWith_rsp (p : Params) : (State.resetWith p).rsp = none := rfl
@[simp] theorem State.resetWith_params (p : Params) : (State.resetWith p).params = p := rfl
@[simp] theorem State.resetWith_rst (p : Params) : (State.resetWith p).rst = false := rfl
@[simp] theorem State.resetWith_cmdIn (p : Params) : (State.resetWith p).cmdIn = [] := rfl
@[simp] theorem State.resetWith_rspReady (p : Params) : (State.resetWith p).rspReady = true := rfl
@[simp] theorem State.resetWith_rspOut (p : Params) : (State.resetWith p).rspOut = [] := rfl

end Sys2Proof.Machine
end

