-- ==== Sys2Proof/Laws/Window.lean ====
section
/-! SUPPORT. What the window primitives do, each said once (20_memory.md R44..R46), and that every operation keeps the window's form. -/

namespace Sys2Proof.Machine

/-! ### first_index (R13) -/

theorem firstIndex_eq_none_iff (v : Byte) (S : List Byte) : firstIndex v S = none ↔ v ∉ S := by
  induction S with
  | nil => simp [firstIndex]
  | cons b S ih =>
    by_cases h : b = v
    · simp [firstIndex, h]
    · simp [firstIndex, h, ih, Ne.symm h]

/-- The first index splits the sequence at the first occurrence. -/
theorem firstIndex_append_cons (v : Byte) (pre post : List Byte) (h : v ∉ pre) :
    firstIndex v (pre ++ v :: post) = some pre.length := by
  induction pre with
  | nil => simp [firstIndex]
  | cons b pre ih =>
    have hb : b ≠ v := fun e => h (by simp [e])
    have hp : v ∉ pre := fun m => h (by simp [m])
    simp [firstIndex, hb, ih hp]

/-- A sequence with a first index is split by it at the first occurrence. -/
theorem firstIndex_eq_some (v : Byte) (S : List Byte) (i : Nat) (h : firstIndex v S = some i) :
    ∃ pre post, S = pre ++ v :: post ∧ v ∉ pre ∧ pre.length = i := by
  induction S generalizing i with
  | nil => simp [firstIndex] at h
  | cons b S ih =>
    by_cases hb : b = v
    · have hi : i = 0 := by simpa [firstIndex, hb, eq_comm] using h
      exact ⟨[], S, by simp [hb], by simp, by simp [hi]⟩
    · obtain ⟨j, hj, rfl⟩ : ∃ j, firstIndex v S = some j ∧ j + 1 = i := by
        simpa [firstIndex, hb] using h
      obtain ⟨pre, post, rfl, hn, rfl⟩ := ih j hj
      exact ⟨b :: pre, post, by simp, by simp [hn, Ne.symm hb], by simp⟩

theorem firstIndex_lt (v : Byte) (S : List Byte) (i : Nat) (h : firstIndex v S = some i) : i < S.length := by
  obtain ⟨pre, post, rfl, -, rfl⟩ := firstIndex_eq_some v S i h
  simp

/-! ### WinAppend, WinDrop, MemRead -/

/-- WinAppend keeps the most recent bytes of the window and the new one. -/
theorem windowPush_eq_drop (cap : Nat) (b : Byte) (W : Window) :
    windowPush cap b W = W.drop (if W.length < cap then 0 else 1) ++ [b] := by
  unfold windowPush
  split <;> simp

theorem windowPush_of_lt (cap : Nat) (b : Byte) (W : Window) (h : W.length < cap) :
    windowPush cap b W = W ++ [b] := by
  simp [windowPush, h]

theorem windowPush_length (cap : Nat) (b : Byte) (W : Window) (hc : 0 < cap) (hW : W.length ≤ cap) :
    (windowPush cap b W).length = min (W.length + 1) cap := by
  unfold windowPush
  split <;> simp <;> omega

/-- MemRead of one byte is the byte at that offset (R46). -/
theorem memRead_one (off : Nat) (W : Window) : memRead off 1 W = (W[off]?).map (fun b => [b]) := by
  unfold memRead
  by_cases h : off < W.length
  · rw [if_pos (by omega), List.getElem?_eq_getElem h, List.drop_eq_getElem_cons h]
    rfl
  · rw [if_neg (by omega), List.getElem?_eq_none (by omega)]
    simp

/-- A read past the window has no value, and a read inside it has one (R34, R46). -/
theorem windowByte_eq_none_iff (off : Nat) (s : State) : s.windowByte off = none ↔ s.window.length ≤ off := by
  simp [State.windowByte]

/-! ### Every operation keeps the window's form (R21) -/

theorem winAppend_keeps_wf (b : Byte) (s : State) (hp : s.params.legal) (h : Memory.wf s.params s.window) :
    Memory.wf (s.winAppend b).params (s.winAppend b).window := by
  have := windowPush_length s.params.capacity b s.window (by have := hp; omega) h
  simp only [Memory.wf, State.winAppend_params, State.winAppend_window]
  omega

theorem winDrop_keeps_wf (n : Nat) (s : State) (h : Memory.wf s.params s.window) :
    Memory.wf (s.winDrop n).params (s.winDrop n).window := by
  simp only [Memory.wf, State.winDrop_params, State.winDrop_window, List.length_drop] at *
  omega

theorem resetWith_memory_wf (p : Params) : Memory.wf (State.resetWith p).params (State.resetWith p).window := by
  simp [Memory.wf]

theorem reset_memory_wf : Memory.wf State.reset.params State.reset.window :=
  resetWith_memory_wf Config.params

end Sys2Proof.Machine
end

