-- ==== Sys2Proof/Laws/Scanner.lean ====
section
/-! SUPPORT. What one pass of SCAN's loop can find, and what the loop can do, each said once (41_frame_scanner.md R122..R132). -/

namespace Sys2Proof.Machine

theorem noMarkerDrop_le (retain : Bool) (n : Nat) : noMarkerDrop retain n ≤ n := by
  unfold noMarkerDrop
  split <;> omega

/-- The retained byte is the only one under RETAIN_LAST, and there is none under the original policy (R123). -/
theorem drop_noMarkerDrop (retain : Bool) (W : Window) :
    W.drop (noMarkerDrop retain W.length) = if retain = true then W.drop (W.length - 1) else [] := by
  unfold noMarkerDrop
  by_cases hr : retain = true
  · by_cases hn : 1 ≤ W.length
    · simp [hr, hn]
    · have : W = [] := List.eq_nil_of_length_eq_zero (by omega)
      simp [this]
  · simp [hr]

/-- Whatever a pass finds, with a marker at `start`: the window holds it, the spurious outcomes drop at least one byte that is there, and
a candidate lies wholly inside the window and the capacity (R125..R128). -/
theorem scanPass_cases (p : Params) (W : Window) :
    (scanPass p W = .noMarker ∧ p.stx ∉ W) ∨
    ((scanPass p W = .headerWait ∨ scanPass p W = .bodyWait) ∧ p.stx ∈ W) ∨
    (∃ start, (scanPass p W = .implausible start ∨ scanPass p W = .badEnd start) ∧ start < W.length) ∨
    (∃ start len : Nat, ∃ lenByte : Byte, scanPass p W = .candidate start len ∧ len = lenByte.toNat ∧
      start + len + 6 ≤ W.length ∧ start + len + 6 ≤ p.capacity ∧ W[start]? = some p.stx ∧
      W[start + 3]? = some lenByte ∧ W[start + len + 5]? = some p.etx) := by
  unfold scanPass
  cases hi : firstIndex p.stx W with
  | none => exact .inl ⟨rfl, (firstIndex_eq_none_iff _ _).1 hi⟩
  | some start =>
    have hlt := firstIndex_lt _ _ _ hi
    obtain ⟨pre, post, hW, -, hpre⟩ := firstIndex_eq_some _ _ _ hi
    have hmem : p.stx ∈ W := by simp [hW]
    have hstx : W[start]? = some p.stx := by simp [hW, ← hpre]
    refine .inr ?_
    cases hl : W[start + 3]? with
    | none => exact .inl ⟨.inl (by simp [hl]), hmem⟩
    | some len =>
      by_cases hc : start + len.toNat + 6 > p.capacity
      · exact .inr (.inl ⟨start, .inl (by simp [hl, hc]), hlt⟩)
      · cases he : W[start + len.toNat + 5]? with
        | none => exact .inl ⟨.inr (by simp [hl, hc, he]), hmem⟩
        | some e =>
          have hin := (List.getElem?_eq_some_iff.1 he).1
          by_cases hx : e = p.etx
          · exact .inr (.inr ⟨start, len.toNat, len, by simp [hl, hc, he, hx], rfl, by omega, by omega, hstx, hl,
              by rw [he, hx]⟩)
          · exact .inr (.inl ⟨start, .inr (by simp [hl, hc, he, hx]), hlt⟩)

/-- One pass that resynchronises, from enough passes (R127). -/
theorem scanLoop_spurious (fuel start : Nat) (s : State)
    (h : scanPass s.params s.window = .implausible start ∨ scanPass s.params s.window = .badEnd start) :
    scanLoop (fuel + 1) s = scanLoop fuel (s.resync start) := by
  rcases h with h | h <;> simp [scanLoop, h]

/-- Passes beyond `|W| + 1` change nothing: the loop always ends by itself (R132). -/
theorem scanLoop_fuel (fuel : Nat) (s : State) (h : s.window.length < fuel) :
    scanLoop fuel s = scanLoop (s.window.length + 1) s := by
  induction fuel using Nat.strong_induction_on generalizing s with
  | _ fuel ih =>
    obtain ⟨f, rfl⟩ : ∃ f, fuel = f + 1 := ⟨fuel - 1, by omega⟩
    rcases scanPass_cases s.params s.window with ⟨hp, -⟩ | ⟨hp | hp, -⟩ | ⟨start, hp, hlt⟩ | ⟨start, len, lb, hp, -⟩
    · simp [scanLoop, hp]
    · simp [scanLoop, hp]
    · simp [scanLoop, hp]
    · rw [scanLoop_spurious f start s hp, scanLoop_spurious s.window.length start s hp]
      have hl : (s.resync start).window.length = s.window.length - (start + 1) := by simp
      by_cases hf : f = s.window.length
      · rw [hf]
      · rw [ih f (by omega) _ (by rw [hl]; omega)]
        by_cases hw : s.window.length < f + 1 ∧ (s.resync start).window.length < s.window.length
        · exact (ih s.window.length (by omega) _ hw.2).symm
        · omega
    · simp [scanLoop, hp]

/-- What the loop can do, said once: it ends in a wait (no marker, header or body), or in a candidate frame, after `k` resynchronisations
that dropped at least `k` of the `d` bytes gone before the last pass. -/
theorem scanLoop_cases (fuel : Nat) (s : State) (h : s.window.length < fuel) :
    ∃ (k d : Nat) (u : State), k ≤ d ∧ d ≤ s.window.length ∧
      u = { s with window := s.window.drop d, resyncCnt := s.resyncCnt + BitVec.ofNat 16 k } ∧
      ((scanPass u.params u.window = .noMarker ∧
          scanLoop fuel s = (u.winDrop (noMarkerDrop u.retainLast u.window.length)).respond .noFrameYet 0#28) ∨
       ((scanPass u.params u.window = .headerWait ∨ scanPass u.params u.window = .bodyWait) ∧
          scanLoop fuel s = u.respond .noFrameYet 0#28) ∨
       ∃ start len, scanPass u.params u.window = .candidate start len ∧ scanLoop fuel s = u.extract start len) := by
  induction fuel generalizing s with
  | zero => omega
  | succ f ih =>
    have hself : s = { s with window := s.window.drop 0, resyncCnt := s.resyncCnt + BitVec.ofNat 16 0 } := by simp
    rcases scanPass_cases s.params s.window with ⟨hp, -⟩ | ⟨hp, -⟩ | ⟨start, hp, hlt⟩ | ⟨start, len, lb, hp, -⟩
    · exact ⟨0, 0, s, by omega, by omega, hself, .inl ⟨hp, by simp [scanLoop, hp]⟩⟩
    · exact ⟨0, 0, s, by omega, by omega, hself, .inr (.inl ⟨hp, by rcases hp with hp | hp <;> simp [scanLoop, hp]⟩)⟩
    · obtain ⟨k, d, u, hk, hd, hu, hcase⟩ := ih (s.resync start) (by simp; omega)
      simp only [State.resync_window, List.length_drop] at hd
      refine ⟨k + 1, start + 1 + d, u, by omega, by omega, ?_, ?_⟩
      · rw [hu]
        simp only [State.resync, State.countResync, State.winDrop, List.drop_drop]
        congr 1
        · rw [Nat.add_comm k 1, BitVec.ofNat_add, ← BitVec.add_assoc]
      · rw [scanLoop_spurious f start s hp]
        exact hcase
    · exact ⟨0, 0, s, by omega, by omega, hself, .inr (.inr ⟨start, len, hp, by simp [scanLoop, hp]⟩)⟩

/-- What extraction can do, said once: the window advances past the frame, and the frame is held exactly when it validates
(R128..R130). -/
theorem extract_cases (start len : Nat) (s : State) :
    (validate (candidateFrame start len s.window) = true ∧
      s.extract start len = ((s.winDrop (start + len + 6)).holdFrame (candidateFrame start len s.window)).respond .frameOk
        (frameInfoOf (candidateFrame start len s.window))) ∨
    (validate (candidateFrame start len s.window) = false ∧
      s.extract start len = (s.winDrop (start + len + 6)).respond .checksumMismatch 0#28) := by
  cases hv : validate (candidateFrame start len s.window) <;> simp [State.extract, hv]

end Sys2Proof.Machine
end

