-- ==== Sys2Proof/Laws/Step.lean ====
section
/-! SUPPORT. What running a word, an edge at the response port and a step can do, each said once (30_encoding.md R61, R64;
70_reset_and_hazards.md R200). -/

namespace Sys2Proof.Machine

/-- A word that decodes runs as its command, and every other word answers ILLEGAL_CMD (R64, R184). -/
theorem runWord_cases (w : Word) (s : State) :
    (∃ i, decode w = .ok i ∧ runWord w s = exec i s) ∨
    (∃ e, decode w = .error e ∧ runWord w s = .next (s.raiseError .illegalCmd)) := by
  unfold runWord
  cases decode w with
  | ok i => exact .inl ⟨i, rfl, rfl⟩
  | error e => exact .inr ⟨e, rfl, rfl⟩

/-- An edge with a command in flight delivers its response or changes nothing (R61). -/
theorem awaitDelivery_cases (s : State) :
    (∃ r, s.rsp = some r ∧ s.rspReady = true ∧ s.awaitDelivery = s.deliver r) ∨
    ((s.rsp = none ∨ s.rspReady = false) ∧ s.awaitDelivery = s) := by
  unfold State.awaitDelivery
  cases hr : s.rsp with
  | none => exact .inr ⟨.inl rfl, rfl⟩
  | some r =>
    cases hq : s.rspReady with
    | true => exact .inl ⟨r, rfl, rfl, by simp⟩
    | false => exact .inr ⟨.inr rfl, by simp⟩

/-- Everything a step can do: reset, wait for or make a delivery, hold, or accept and run the next word. -/
theorem step_cases (s : State) :
    (s.rst = true ∧ step s = .next s.resetEdge) ∨
    (s.rst = false ∧ s.inFlight.isSome = true ∧ step s = .next s.awaitDelivery) ∨
    (s.rst = false ∧ s.inFlight = none ∧ s.cmdIn = [] ∧ step s = .next s) ∨
    (∃ w rest, s.rst = false ∧ s.inFlight = none ∧ s.cmdIn = w :: rest ∧ step s = runWord w (s.accept w rest)) := by
  unfold step
  cases hr : s.rst with
  | true => exact .inl ⟨rfl, rfl⟩
  | false =>
    refine .inr ?_
    cases hf : s.inFlight with
    | some w => exact .inl ⟨rfl, rfl, rfl⟩
    | none =>
      refine .inr ?_
      cases hc : s.cmdIn with
      | nil => exact .inl ⟨rfl, rfl, rfl, rfl⟩
      | cons w rest => exact .inr ⟨w, rest, rfl, rfl, rfl, rfl⟩

/-- `s` with the ports, the command in flight and the sequence index of `p`: what no command reads. -/
def State.withPortsOf (s p : State) : State :=
  { s with seqIndex := p.seqIndex, inFlight := p.inFlight, rst := p.rst, cmdIn := p.cmdIn, rspReady := p.rspReady,
           rspOut := p.rspOut }

/-- SCAN's loop neither reads nor writes the ports (R120). -/
theorem scanLoop_withPortsOf (p : State) (n : Nat) (s : State) :
    scanLoop n (s.withPortsOf p) = (scanLoop n s).withPortsOf p := by
  induction n generalizing s with
  | zero => rfl
  | succ n ih =>
    unfold scanLoop
    rw [show scanPass (s.withPortsOf p).params (s.withPortsOf p).window = scanPass s.params s.window from rfl]
    split
    · rfl
    · rfl
    · exact ih (s.resync _)
    · rfl
    · exact ih (s.resync _)
    · simp only [State.extract, show (s.withPortsOf p).window = s.window from rfl]
      split <;> rfl

/-- A command neither reads nor writes the ports: its result depends on the SPF's own state alone (R20, R50). -/
theorem exec_withPortsOf (p : State) {i : Instr} {s t : State} (h : exec i s = .next t) :
    exec i (s.withPortsOf p) = .next (t.withPortsOf p) := by
  cases i with
  | append b => cases h; rfl
  | wrctrl v => cases h; rfl
  | scan => cases h; exact congrArg Host.Outcome.next (scanLoop_withPortsOf p _ s.clearFrame)
  | peek off =>
    simp only [exec, execPeek, show (s.withPortsOf p).windowByte off.toNat = s.windowByte off.toNat from rfl] at *
    split at h <;> cases h <;> rfl
  | consume n =>
    simp only [exec, execConsume, show (s.withPortsOf p).window = s.window from rfl] at *
    split at h <;> cases h <;> rename_i hn
    · rw [if_pos hn]; rfl
    · rw [if_neg hn]; rfl
  | readf k =>
    simp only [exec, execReadf, show (s.withPortsOf p).frameByte k.toNat = s.frameByte k.toNat from rfl] at *
    split at h <;> cases h <;> rfl
  | rdreg r =>
    simp only [exec, execRdreg, show (s.withPortsOf p).readReg r = s.readReg r from rfl] at *
    split at h <;> cases h <;> rfl

/-- The same for any word, legal or not (R64). -/
theorem runWord_withPortsOf (p : State) {w : Word} {s t : State} (h : runWord w s = .next t) :
    runWord w (s.withPortsOf p) = .next (t.withPortsOf p) := by
  unfold runWord at *
  split at h
  · exact exec_withPortsOf p h
  · cases h; rfl

/-- `m + n` edges are `m` edges and then `n` edges on the rest of the schedule. -/
theorem runEdges_add (ready : Nat → Bool) (m n : Nat) {s t : State} (h : runEdges ready m s = .next t) :
    runEdges ready (m + n) s = runEdges (fun k => ready (m + k)) n t := by
  induction n with
  | zero => exact h
  | succ n ih => rw [← Nat.add_assoc, runEdges, ih, runEdges]

/-- While `rsp_ready` is low, a pending response stays offered and the rest of the state stands still (R61). -/
theorem runEdges_stalled {ready : Nat → Bool} {n : Nat} {s : State} (hs : s.rst = false) (hf : s.inFlight.isSome = true)
    (hlow : ∀ k, k < n → ready k = false) :
    ∃ q, runEdges ready n s = .next (s.driveRspReady q) := by
  induction n with
  | zero => exact ⟨s.rspReady, rfl⟩
  | succ n ih =>
    obtain ⟨q, hq⟩ := ih fun k hk => hlow k (Nat.lt_succ_of_lt hk)
    obtain ⟨w, hw⟩ := Option.isSome_iff_exists.1 hf
    refine ⟨false, ?_⟩
    rw [runEdges, hq, hlow n (Nat.lt_succ_self n)]
    cases hr : s.rsp <;> simp [edgeWith, step, hs, hw, State.awaitDelivery, hr, State.driveRspReady]

/-- An edge with `rsp_ready` high takes the response of the command in flight (R61). -/
theorem edgeWith_delivers {s : State} {r : Word} (hs : s.rst = false) (hf : s.inFlight.isSome = true) (hr : s.rsp = some r) :
    edgeWith true s = .next ((s.driveRspReady true).deliver r) := by
  obtain ⟨w, hw⟩ := Option.isSome_iff_exists.1 hf
  simp [edgeWith, step, hs, hw, State.awaitDelivery, hr]

/-- The word that `withFetchWord` presents is the one the next step accepts (entry 9). -/
theorem withFetchWord_next (s : State) (nbits w : Nat) :
    (s.withFetchWord nbits w).cmdReady = true ∧ (s.withFetchWord nbits w).cmdIn = tableWord nbits w :: s.cmdIn := by
  cases h : s.rsp <;> simp [State.withFetchWord, State.presentNext, State.cmdReady, h]

end Sys2Proof.Machine
end

