-- ==== Sys2Proof/Tests/Slice0.lean ====
section
/-! SUPPORT. Tests of single steps with values of spec/95_test_vectors.md, the checks of WellFormed on ill-formed terms, decoding of
words written out from the encodings, and for every statement with hypotheses a state and operands that meet them. -/

namespace Sys2Proof.Machine.Tests

/-- A small machine: capacity, STX 0x02, ETX 0x03, POS_TYPE 0x77, and a window. -/
def mk (cap : BitVec 16) (W : Window) : State :=
  { State.resetWith { cap := cap, stx := 0x02#8, etx := 0x03#8, posType := 0x77#8 } with window := W }

/-- The corrected scenario frame `G` of 95_test_vectors.md. -/
def frameG : List Byte := [0x02, 0x00, 0x56, 0x03, 0x01, 0xAA, 0xBB, 0xBF, 0x03]

/-! ### WellFormed refuses an ill-formed term for each check -/

theorem test_opcode_0_refused : commandWellFormed 0 0 = false := by decide
theorem test_opcode_8_refused : commandWellFormed 8 0 = false := by decide
theorem test_append_256_refused : commandWellFormed 1 256 = false := by decide
theorem test_scan_operand_refused : commandWellFormed 2 1 = false := by decide
theorem test_peek_65536_refused : commandWellFormed 3 65536 = false := by decide
theorem test_consume_65536_refused : commandWellFormed 4 65536 = false := by decide
theorem test_readf_65536_refused : commandWellFormed 5 65536 = false := by decide
theorem test_rdreg_65536_refused : commandWellFormed 6 65536 = false := by decide
theorem test_wrctrl_2_refused : commandWellFormed 7 2 = false := by decide
theorem test_largest_operands_accepted :
    commandWellFormed 1 255 && commandWellFormed 3 65535 && commandWellFormed 7 1 = true := by decide
theorem test_cap_5_is_not_legal : ¬ (mk 5 []).params.legal := by decide
theorem test_cap_6_is_legal : (mk 6 []).params.legal := by decide
theorem test_overfull_window_is_not_wf : ¬ Memory.wf (mk 6 []).params [1, 2, 3, 4, 5, 6, 7] := by decide

/-! ### Decoding: words written out bit by bit (R62, R63), and refusals by name (R64, R185) -/

theorem test_decode_append : decode 0b00010000000000000000000001010110#32 = .ok (.append 0x56) := by decide
theorem test_decode_scan : decode 0b00100000000000000000000000000000#32 = .ok .scan := by decide
theorem test_decode_peek : decode 0b00110000000000000000000000000011#32 = .ok (.peek 3) := by decide
theorem test_decode_consume : decode 0b01000000000000000000000000000010#32 = .ok (.consume 2) := by decide
theorem test_decode_readf : decode 0b01010000000000000000000000000111#32 = .ok (.readf 7) := by decide
theorem test_decode_rdreg : decode 0b01100000000000001111111111111111#32 = .ok (.rdreg 0xFFFF) := by decide
theorem test_decode_wrctrl : decode 0b01110000000000000000000000000001#32 = .ok (.wrctrl true) := by decide
theorem test_decode_zero_word : decode 0x00000000#32 = .error .reservedOpcode := by decide
theorem test_decode_reserved_op_before_rsv : decode 0x90010000#32 = .error .reservedOpcode := by decide
theorem test_decode_rsv : decode 0x30010005#32 = .error .nonzeroRsv := by decide
theorem test_decode_append_high_arg : decode 0x10000100#32 = .error .nonzeroReservedArg := by decide
theorem test_decode_scan_arg : decode 0x20000001#32 = .error .nonzeroReservedArg := by decide
theorem test_decode_wrctrl_2 : decode 0x70000002#32 = .error .nonzeroReservedArg := by decide
theorem test_table_word : decodeTableWord 32 0x70000001 = some (.wrctrl true) := by decide

/-! ### Single commands (vectors of 95_test_vectors.md) -/

/-- A-3: an APPEND into a full window of 8. -/
theorem test_append_evicts_oldest :
    exec (.append 0x18) (mk 8 [0x10, 0x11, 0x12, 0x13, 0x14, 0x15, 0x16, 0x17]) =
      .next { mk 8 [0x11, 0x12, 0x13, 0x14, 0x15, 0x16, 0x17, 0x18] with rsp := some 0 } := rfl
/-- P-2. -/
theorem test_peek_newest :
    exec (.peek 3) (mk 1024 [0x02, 0x00, 0x56, 0x03]) =
      .next { mk 1024 [0x02, 0x00, 0x56, 0x03] with rsp := some 3 } := rfl
/-- P-3. -/
theorem test_peek_past_end :
    exec (.peek 4) (mk 1024 [0x02, 0x00, 0x56, 0x03]) =
      .next { mk 1024 [0x02, 0x00, 0x56, 0x03] with rsp := some 0x10000000 } := rfl
/-- C-1. -/
theorem test_consume_two :
    exec (.consume 2) (mk 1024 [0x55, 0x66, 0x02, 0x00]) = .next { mk 1024 [0x02, 0x00] with rsp := some 0 } := rfl
/-- C-2: nothing is discarded. -/
theorem test_consume_too_many :
    exec (.consume 3) (mk 1024 [0x02, 0x00]) = .next { mk 1024 [0x02, 0x00] with rsp := some 0x10000000 } := rfl
/-- S-15 (a spurious marker, then the frame), S-16 (a wrong span is extracted and fails its checksum), S-35 (equal markers). -/
theorem test_scan_extracts :
    exec .scan (mk 1024 ([0x55, 0x02, 0x07, 0x09] ++ frameG)) =
      .next { mk 1024 [] with resyncCnt := 1, frame := some frameG, rsp := some 0x41005603 } ∧
    exec .scan (mk 1024 [0x55, 0x02, 0x07, 0x02, 0x00, 0x56, 0x03, 0x01, 0xAA, 0xBB, 0xBF, 0x03]) =
      .next { mk 1024 [0x01, 0xAA, 0xBB, 0xBF, 0x03] with rsp := some 0x50000000 } ∧
    exec .scan { mk 1024 [0x7E, 0x00, 0x56, 0x03, 0x01, 0xAA, 0xBB, 0xBF, 0x7E] with
        params := { cap := 1024, stx := 0x7E, etx := 0x7E, posType := 0 } } =
      .next { mk 1024 [] with
        params := { cap := 1024, stx := 0x7E, etx := 0x7E, posType := 0 },
        frame := some [0x7E, 0x00, 0x56, 0x03, 0x01, 0xAA, 0xBB, 0xBF, 0x7E], rsp := some 0x41005603 } :=
  ⟨rfl, rfl, rfl⟩
/-- S-3 (retain-last), S-29 and S-29b (263 bytes against a capacity of 300 and of 262), S-30 (RESYNC_CNT wraps). -/
theorem test_scan_waits_and_drops :
    exec .scan { mk 1024 [0x41, 0x42, 0x43] with retainLast := true } =
      .next { mk 1024 [0x43] with retainLast := true, rsp := some 0x30000000 } ∧
    exec .scan (mk 300 [0x41, 0x42, 0x02, 0x00, 0x56, 0xFF]) =
      .next { mk 300 [0x41, 0x42, 0x02, 0x00, 0x56, 0xFF] with rsp := some 0x30000000 } ∧
    exec .scan (mk 262 [0x41, 0x42, 0x02, 0x00, 0x56, 0xFF]) =
      .next { mk 262 [] with resyncCnt := 1, rsp := some 0x30000000 } ∧
    exec .scan { mk 1024 [0x02, 0x00, 0x56, 0x03, 0x01, 0xAA, 0xBB, 0xBF, 0x04] with resyncCnt := 0xFFFF } =
      .next { mk 1024 [] with rsp := some 0x30000000 } :=
  ⟨rfl, rfl, rfl, rfl⟩
/-- F-1, index 7. -/
theorem test_readf_checksum_byte :
    exec (.readf 7) { mk 1024 [] with frame := some frameG } =
      .next { mk 1024 [] with frame := some frameG, rsp := some 0xBF } := rfl
/-- F-2. -/
theorem test_readf_past_end :
    exec (.readf 9) { mk 1024 [] with frame := some frameG } =
      .next { mk 1024 [] with frame := some frameG, rsp := some 0x10000000 } := rfl
/-- R-6 with POS_TYPE 0x77. -/
theorem test_rdreg_const : exec (.rdreg 5) (mk 1024 []) = .next { mk 1024 [] with rsp := some 0x04770302 } := rfl
/-- The FRAME_INFO of program P1. -/
theorem test_rdreg_frame_info :
    exec (.rdreg 4) { mk 1024 [] with frame := some frameG } =
      .next { mk 1024 [] with frame := some frameG, rsp := some 0x01005603 } := rfl
/-- W-1. -/
theorem test_wrctrl_sets_retain :
    exec (.wrctrl true) (mk 1024 []) = .next { mk 1024 [] with retainLast := true, rsp := some 0 } := rfl
/-- V-10 and V-11: STATUS is summed, ETX is not looked at. -/
theorem test_validate_span :
    validate [0x02, 0x01, 0x56, 0x03, 0x01, 0xAA, 0xBB, 0xBF, 0x03] = false ∧
      validate [0x02, 0x00, 0x56, 0x03, 0x01, 0xAA, 0xBB, 0xBF, 0x04] = true := by decide
/-- V-12 and V-13: the defensive size checks. -/
theorem test_validate_sizes : validate [0x02, 0x00, 0x56, 0x03, 0x01] = false ∧ validate (frameG ++ [0x00]) = false := by
  decide

/-! ### The step, reset and the fetch -/

theorem test_first_step_runs_the_word :
    step ((mk 1024 []).withFetchWord 32 0x10000002) =
      .next { mk 1024 [0x02] with seqIndex := 1, inFlight := some 0x10000002, rsp := some 0 } := rfl
theorem test_illegal_word_answers :
    step ((mk 1024 [0x02]).withFetchWord 32 0x80000000) =
      .next { mk 1024 [0x02] with seqIndex := 1, inFlight := some 0x80000000, rsp := some 0x20000000 } := rfl
theorem test_reset_is_idle : State.reset.window = [] ∧ State.reset.cmdReady = true ∧ State.reset.rspValid = false := by
  decide

/-! ### Assembler and circular layout -/

theorem test_assemble_comment : assembleText "APPEND 0x56 ; a byte".toList = some (.words [0x10000056]) := by decide
theorem test_assemble_appends : assembleText "APPENDS 2, 0, 0x56".toList =
    some (.words [0x10000002, 0x10000000, 0x10000056]) := by decide +kernel
theorem test_assemble_peekn : assembleText "PEEKN 3, 2".toList = some (.words [0x30000003, 0x30000004]) := by
  decide +kernel
theorem test_assemble_out_of_range : assembleText "APPEND 256".toList = none := by decide +kernel
theorem test_ring_append_wraps :
    ringWindow (ringAppend 0x18 { mem := [0x13, 0x14, 0x10, 0x11, 0x12], rp := 2, count := 5 }) =
      [0x11, 0x12, 0x13, 0x14, 0x18] := by decide

/-! ### Witnesses: the hypotheses of each statement are met together -/

/-- A ready machine that is offered words. -/
def offered (ws : List Word) : State := { mk 1024 [0x41] with cmdIn := ws }

theorem witness_EncodeOfDecodeIsTheWord : decode 0x7000_0001#32 = .ok (.wrctrl true) := by decide

theorem witness_IllegalWordsAnswerIllegalCmd_illegal :
    IllegalEncoding 0x00000000#32 ∧ IllegalEncoding 0x80000000#32 ∧ IllegalEncoding 0x20010000#32 ∧
      IllegalEncoding 0x10000100#32 ∧ IllegalEncoding 0x20000001#32 ∧ IllegalEncoding 0x70000002#32 :=
  ⟨by decide, by decide, by decide, by decide, by decide, by decide⟩
theorem witness_IllegalWordsAnswerIllegalCmd_legal :
    ¬ IllegalEncoding 0x100000FF#32 ∧ ¬ IllegalEncoding 0x70000001#32 := by decide
theorem witness_IllegalWordsAnswerIllegalCmd_register :
    ¬ IllegalEncoding 0x60000006#32 ∧ opField 0x60000006#32 = 6#4 ∧ 6 ≤ (argField 0x60000006#32).toNat := by decide
theorem witness_IllegalWordsAnswerIllegalCmd_peek :
    ¬ IllegalEncoding 0x30000001#32 ∧ opField 0x30000001#32 = 3#4 ∧
      (mk 1024 [0x41]).window.length ≤ (argField 0x30000001#32).toNat := by decide
theorem witness_IllegalWordsAnswerIllegalCmd_consume :
    ¬ IllegalEncoding 0x40000002#32 ∧ opField 0x40000002#32 = 4#4 ∧
      (mk 1024 [0x41]).window.length < (argField 0x40000002#32).toNat := by decide
theorem witness_IllegalWordsAnswerIllegalCmd_readf :
    ¬ IllegalEncoding 0x50000009#32 ∧ opField 0x50000009#32 = 5#4 ∧
      ∀ F ∈ ({ mk 1024 [] with frame := some frameG } : State).frame, F.length ≤ (argField 0x50000009#32).toNat := by decide
theorem witness_WordIsCommandExactlyWhenMaskMatches :
    (opField 0x00000000#32 = 0#4 ∨ 8#4 ≤ opField 0x00000000#32) ∧
      (opField 0x80000000#32 = 0#4 ∨ 8#4 ≤ opField 0x80000000#32) := by decide
theorem witness_IllegalCmdOnlyForIllegalWords : ∃ t, runWord 0x60000006#32 (mk 1024 []) = .next t := ⟨_, rfl⟩
theorem witness_DecodeErrorPriority_opcode : opField 0x00010000#32 = 0#4 ∨ 8#4 ≤ opField 0x00010000#32 := by decide
theorem witness_DecodeErrorPriority_opcode_8 : opField 0x80010000#32 = 0#4 ∨ 8#4 ≤ opField 0x80010000#32 := by decide
theorem witness_DecodeErrorPriority_rsv :
    ¬ (opField 0x70010002#32 = 0#4 ∨ 8#4 ≤ opField 0x70010002#32) ∧ rsvField 0x70010002#32 ≠ 0#12 := by decide
theorem witness_DecodeErrorPriority_arg :
    ¬ (opField 0x10000100#32 = 0#4 ∨ 8#4 ≤ opField 0x10000100#32) ∧ rsvField 0x10000100#32 = 0#12 ∧
      IllegalEncoding 0x10000100#32 := by decide
theorem witness_AssembledCommandIsItsEncoding : assembleCommand 7 1 = some 0x70000001#32 := by decide

theorem witness_StepRunsTheDecodedInstruction :
    (offered [0x20000000]).cmdReady = true ∧ (offered [0x20000000]).cmdIn = [0x20000000#32] ∧
      decode 0x20000000#32 = .ok .scan := by decide
theorem witness_EveryAcceptedWordGetsOneResponse :
    (offered [0x00000000]).cmdReady = true ∧ (offered [0x00000000]).cmdIn = [0x00000000#32] := by decide
theorem witness_StalledOrIdleSpfHoldsItsState_stalled :
    ∃ s : State, s.rst = false ∧ s.inFlight.isSome = true ∧ s.rspReady = false :=
  ⟨{ mk 1024 [] with inFlight := some 0x20000000, rsp := some 0x30000000, rspReady := false }, by decide⟩
theorem witness_StalledOrIdleSpfHoldsItsState_idle :
    (mk 1024 [0x41]).rst = false ∧ (mk 1024 [0x41]).inFlight = none ∧ (mk 1024 [0x41]).cmdIn = [] := by decide
theorem witness_ResetEdgeGivesResetState : ({ mk 1024 [0x41] with rst := true } : State).rst = true := rfl
theorem witness_ResetHidesTheCommandInFlight : ∃ t, exec (.append 0x41) (mk 1024 []) = .next t := ⟨_, rfl⟩
theorem witness_CommandStreamIsAnsweredWordForWord :
    (offered [0x10000002, 0x00000000]).cmdReady = true ∧ (offered [0x10000002, 0x00000000]).rsp = none ∧
      (offered [0x10000002, 0x00000000]).rspReady = true ∧
      (offered [0x10000002, 0x00000000]).cmdIn = [0x10000002#32, 0x00000000#32] := by decide

theorem witness_word_pseudocodes :
    opField 0x10000041#32 = 1#4 ∧ opField 0x30000000#32 = 3#4 ∧ opField 0x40000000#32 = 4#4 ∧
      opField 0x50000000#32 = 5#4 ∧ opField 0x70000000#32 = 7#4 := by decide
theorem witness_PeekReadsOneWindowByte :
    (0#16).toNat < (mk 1024 [0x41]).window.length ∧ (mk 1024 [0x41]).window.length ≤ (1#16).toNat := by decide
theorem witness_ConsumeDiscardsFromTheFront :
    (1#16).toNat ≤ (mk 1024 [0x41]).window.length ∧ (mk 1024 [0x41]).window.length < (2#16).toNat := by decide
theorem witness_AppendStreamKeepsLastCapacityBytes :
    (mk 6 [1, 2, 3, 4, 5, 6]).params.legal ∧ Memory.wf (mk 6 [1, 2, 3, 4, 5, 6]).params (mk 6 [1, 2, 3, 4, 5, 6]).window := by
  decide
theorem witness_AppendsWithinCapacityLoseNothing :
    (mk 6 [1, 2, 3, 4]).window.length + ([5, 6] : List Byte).length ≤ (mk 6 [1, 2, 3, 4]).params.capacity := by decide
theorem witness_WindowOnlySlides :
    exec (.consume 1) (mk 1024 [0x41, 0x42]) = .next { mk 1024 [0x42] with rsp := some 0 } := rfl
/-- A machine with a full window that holds a frame. -/
def full : State := { mk 9 frameG with frame := some frameG }
theorem witness_StateInv_full : StateInv full := by decide
theorem witness_AppendedByteIsPeekedBack : StateInv (mk 6 [1, 2, 3, 4, 5, 6]) := by decide
theorem witness_RingStorageRefinesTheWindow :
    RingStorage.ok 6 { mem := [1, 2, 3, 4, 5, 6], rp := 5, count := 6 } ∧ 6 ≤ 6 := by decide
theorem witness_PeekNFailsExactlyPastOccupancy :
    1 ≤ 1 ∧ 65535 + 1 ≤ 65536 ∧ ∃ t, exec (.peek (BitVec.ofNat 16 (65535 + 1 - 1))) (mk 1024 [0x41]) = .next t :=
  ⟨by decide, by decide, _, rfl⟩
theorem witness_FlushEmptiesTheWindow : StateInv (mk 6 [1, 2, 3, 4, 5, 6]) := by decide

theorem witness_ScanWithoutMarkerDropsTheWindow :
    (mk 1024 [0x41, 0x42]).params.stx ∉ (mk 1024 [0x41, 0x42]).window := by decide
theorem witness_ScanWaitsForTheHeader :
    (mk 1024 [0x41, 0x02, 0x00, 0x56]).window = [0x41#8] ++ 0x02#8 :: [0x00#8, 0x56#8] ∧ 0x02#8 ∉ [0x41#8] ∧
      ([0x00#8, 0x56#8] : List Byte).length < 3 := by decide
/-- Boundary: the frame ends exactly at the capacity, and one byte of it is missing. -/
theorem witness_ScanWaitsForTheBody :
    (mk 8 [0x41, 0x02, 0x00, 0x56, 0x01, 0xAA, 0xBB]).window =
        [0x41#8] ++ 0x02#8 :: 0x00#8 :: 0x56#8 :: 0x01#8 :: [0xAA#8, 0xBB#8] ∧
      0x02#8 ∉ [0x41#8] ∧ ([0x41#8] : List Byte).length + (0x01#8).toNat + 6 ≤ (mk 8 []).params.capacity ∧
      ([0xAA#8, 0xBB#8] : List Byte).length < (0x01#8).toNat + 2 := by decide
/-- Boundary: one byte beyond the capacity. -/
theorem witness_ScanResynchronisesPastSpuriousMarkers_implausible :
    (mk 7 [0x41, 0x02, 0x00, 0x56, 0x01]).window = [0x41#8] ++ 0x02#8 :: 0x00#8 :: 0x56#8 :: 0x01#8 :: [] ∧
      0x02#8 ∉ [0x41#8] ∧ (mk 7 []).params.capacity < ([0x41#8] : List Byte).length + (0x01#8).toNat + 6 := by decide
theorem witness_ScanResynchronisesPastSpuriousMarkers_badEnd :
    (mk 6 [0x02, 0x10, 0x20, 0x00, 0x30, 0x04]).window =
        [] ++ 0x02#8 :: 0x10#8 :: 0x20#8 :: 0x00#8 :: ([0x30#8] ++ 0x04#8 :: []) ∧
      0x02#8 ∉ ([] : List Byte) ∧ ([0x30#8] : List Byte).length = (0x00#8).toNat + 1 ∧
      ([] : List Byte).length + (0x00#8).toNat + 6 ≤ (mk 6 []).params.capacity ∧ 0x04#8 ≠ (mk 6 []).params.etx := by decide
/-- S-37: the smallest frame in the smallest window. -/
theorem witness_ScanExtractsAndValidatesTheFrame_valid :
    0x02#8 ∉ ([] : List Byte) ∧ ([] : List Byte).length = (0x00#8).toNat ∧
      ([] : List Byte).length + (0x00#8).toNat + 6 ≤ (mk 6 []).params.capacity ∧
      (mk 6 [0x02, 0x10, 0x20, 0x00, 0x30, 0x03]).window =
        [] ++ ((0x02#8 :: 0x10#8 :: 0x20#8 :: 0x00#8 :: []) ++ [sum8 (0x10#8 :: 0x20#8 :: 0x00#8 :: []), 0x03#8]) ++ [] := by
  decide
theorem witness_ScanExtractsAndValidatesTheFrame_wrong :
    0x02#8 ∉ ([] : List Byte) ∧ ([] : List Byte).length = (0x00#8).toNat ∧
      ([] : List Byte).length + (0x00#8).toNat + 6 ≤ (mk 6 []).params.capacity ∧
      0x31#8 ≠ sum8 (0x10#8 :: 0x20#8 :: 0x00#8 :: []) ∧
      (mk 6 [0x02, 0x10, 0x20, 0x00, 0x31, 0x03]).window =
        [] ++ ((0x02#8 :: 0x10#8 :: 0x20#8 :: 0x00#8 :: []) ++ [0x31#8, 0x03#8]) ++ [] := by decide
theorem witness_ScanAfterNoFrameYetChangesNothing :
    ∃ t, exec .scan (mk 1024 [0x02, 0x00]) = .next t ∧ t.rsp = some 0x30000000#32 := ⟨_, rfl, rfl⟩
theorem witness_FrameOkDataIsFrameInfo :
    ∃ t, exec .scan (mk 1024 frameG) = .next t ∧ t.frameValid = true := ⟨_, rfl, rfl⟩
/-- The scenario frame after one stray byte, in a window that just fits it, with SCANs between (program P1). -/
theorem witness_FramingFindsExactlyTheFrame :
    (mk 10 []).frame = none ∧ (mk 10 []).params.stx ∉ (mk 10 []).window ∧ (mk 10 []).params.stx ∉ ([0x55] : List Byte) ∧
      FrameOk (mk 10 []).params frameG ∧
      (mk 10 []).window.length + ([0x55] : List Byte).length + frameG.length ≤ (mk 10 []).params.capacity ∧
      (∀ i ∈ [Instr.append 0x55, .scan, .append 0x02, .append 0x00, .append 0x56, .append 0x03, .scan, .append 0x01,
        .append 0xAA, .append 0xBB, .append 0xBF, .scan], i = .scan ∨ ∃ b, i = .append b) ∧
      appendedBytes [Instr.append 0x55, .scan, .append 0x02, .append 0x00, .append 0x56, .append 0x03, .scan, .append 0x01,
        .append 0xAA, .append 0xBB, .append 0xBF, .scan] ++ [0x03] = [0x55] ++ frameG :=
  ⟨by decide, by decide, by decide, by decide, by decide, by simp, by decide⟩

theorem witness_Sum8IsTheSumModulo256 : ([0x01, 0x02, 0x03] : List Byte).Perm [0x03, 0x01, 0x02] := by decide
theorem witness_ChecksumRoundTrip : (List.replicate 255 0x41#8).length ≤ 255 :=
  Nat.le_of_eq List.length_replicate
theorem witness_SingleByteErrorIsDetected :
    validate frameG = true ∧ 1 ≤ 1 ∧ 7 + 1 < frameG.length ∧ frameG[1]? ≠ some 0x01 ∧ frameG[7]? ≠ some 0xBE := by decide
/-- L1-12: AA, BB become AB, BA. -/
theorem witness_MultiByteErrorsCanPass_sum :
    validate (0x02 :: 0x00 :: 0x56 :: 0x03 :: ([0x01, 0xAA, 0xBB] ++ [0xBF, 0x03])) = true ∧
      ([0x01, 0xAB, 0xBA] : List Byte).length = ([0x01, 0xAA, 0xBB] : List Byte).length ∧
      sum8 (0x00 :: 0x56 :: [0x01, 0xAB, 0xBA]) = sum8 (0x00 :: 0x56 :: [0x01, 0xAA, 0xBB]) := by decide
theorem witness_MultiByteErrorsCanPass_reorder :
    validate (0x02 :: 0x00 :: 0x56 :: 0x03 :: ([0x01, 0xAA, 0xBB] ++ [0xBF, 0x03])) = true ∧
      ((0x56 : Byte) :: 0x00 :: [0xBB, 0xAA, 0x01]).Perm (0x00 :: 0x56 :: [0x01, 0xAA, 0xBB]) := by decide

theorem witness_ReadfReadsTheHeldFrame :
    full.frame = some frameG ∧ (8#16).toNat < frameG.length ∧ (∀ F ∈ full.frame, F.length ≤ (9#16).toNat) ∧
      ∀ F ∈ (mk 1024 []).frame, F.length ≤ (0#16).toNat := by decide
theorem witness_RdregReadsTheRegisterMap :
    (mk 1024 []).frame = none ∧ full.frame = some (0x02 :: 0x00 :: 0x56 :: 0x03 :: [0x01, 0xAA, 0xBB, 0xBF, 0x03]) ∧
      6 ≤ (6#16).toNat ∧ opField 0x60010000#32 = 6#4 ∧ rsvField 0x60010000#32 ≠ 0#12 ∧
      opField 0x60000005#32 = 6#4 ∧ rsvField 0x60000005#32 = 0#12 := by decide
theorem witness_OccReadsTheOccupancy : StateInv (mk 6 [1, 2, 3, 4, 5, 6]) := by decide
theorem witness_ResultCodesArePerCommand : ∃ t, runWord 0x20000000#32 (mk 1024 []) = .next t := ⟨_, rfl⟩
theorem witness_ErrorsChangeNothing :
    (∃ t, runWord 0x30000000#32 (mk 1024 []) = .next t ∧ t.rsp = some 0x10000000#32) ∧
      (∃ t, runWord 0x00000000#32 (mk 1024 []) = .next t ∧ t.rsp = some 0x20000000#32) ∧
      rcField 0x10000000#32 = 1#4 ∧ rcField 0x20000000#32 = 2#4 :=
  ⟨⟨_, rfl, rfl⟩, ⟨_, rfl, rfl⟩, by decide, by decide⟩
theorem witness_ErrorsChangeNothing_ready : ∃ t, runWord 0x30000000#32 (mk 1024 []) = .next t ∧ t.rst = false := ⟨_, rfl, rfl⟩
theorem witness_ReadCommandsAreIdempotent : ∃ t, exec (.rdreg 6) (mk 1024 []) = .next t := ⟨_, rfl⟩
theorem witness_OnlyScanDisturbsTheFrame :
    ∃ t, exec (.append 0x41) full = .next t ∧ Instr.append 0x41 ≠ .scan ∧ ∀ v, Instr.append 0x41 ≠ .wrctrl v :=
  ⟨_, rfl, by simp, by simp⟩
theorem witness_ConstantsReadTheSameInEveryState : ∃ t, step (offered [0x70000001]) = .next t := ⟨_, rfl⟩
theorem witness_ResetMeetsTheInvariants : (mk 6 []).params.legal := by decide
theorem witness_StepKeepsTheInvariant :
    StateInv { full with cmdIn := [0x10000041] } ∧ ∃ t, step { full with cmdIn := [0x10000041] } = .next t :=
  ⟨by decide, _, rfl⟩
theorem witness_StepKeepsThePortInvariant :
    PortInv { full with cmdIn := [0x20000000] } ∧ full.rst = false ∧
      ∃ t, step { full with cmdIn := [0x20000000] } = .next t :=
  ⟨by decide, by decide, _, rfl⟩
theorem witness_AcceptedCommandIsAnsweredOnceRspReadyRises :
    (offered [0x10000002]).cmdReady = true ∧ (offered [0x10000002]).cmdIn = [0x10000002#32] ∧
      ∃ m, 1 ≤ m ∧ (fun k => k == 1) m = true :=
  ⟨by decide, by decide, 1, by decide, by decide⟩
theorem witness_PendingResponseSurvivesAnyStall :
    ∃ s : State, s.rst = false ∧ s.inFlight.isSome = true ∧ s.rsp = some 0x30000000#32 ∧
      (fun k => k == 2) 2 = true ∧ ∀ k, k < 2 → (fun k => k == 2) k = false :=
  ⟨{ mk 1024 [] with inFlight := some 0x20000000, rsp := some 0x30000000 }, by decide⟩
theorem witness_FairControllerGetsEveryResponseInOrder :
    Fair (fun k => k % 3 == 2) ∧ (offered [0x10000002, 0x00000000]).cmdReady = true ∧
      (offered [0x10000002, 0x00000000]).cmdIn = [0x10000002#32, 0x00000000#32] :=
  ⟨fun n => ⟨3 * n + 2, by omega, by simp⟩, by decide⟩
/-- R61: a response stalled at edges 1 and 2 is delivered at edge 3. -/
theorem test_stalled_response_is_delivered :
    (∃ t, runEdges (fun k => k == 3) 3 (offered [0x10000041]) = .next t ∧ t.rspOut = [] ∧ t.rspValid = true) ∧
    (∃ t, runEdges (fun k => k == 3) 4 (offered [0x10000041]) = .next t ∧ t.rspOut = [0x00000000#32] ∧
      t.cmdReady = true) := ⟨⟨_, rfl, rfl, rfl⟩, _, rfl, rfl, rfl⟩

end Sys2Proof.Machine.Tests
end

section
/-! PROOFS. The family 10_state.md: what a command changes, the invariant of R36 at reset and at every step, and the reset values (R35). -/

namespace Sys2Proof.Machine

/-! ### What a command can do -/

/-- Everything a command can do to the state: answer and change nothing else, or make the one change of APPEND, CONSUME, WRCTRL or SCAN
(R20, R50). -/
theorem exec_cases {i : Instr} {s t : State} (h : exec i s = .next t) :
    (∃ rc d, t = s.respond rc d) ∨
    (∃ b, i = .append b ∧ t = (s.winAppend b).respond .ok 0#28) ∨
    (∃ n, i = .consume n ∧ n.toNat ≤ s.window.length ∧ t = (s.winDrop n.toNat).respond .ok 0#28) ∨
    (∃ v, i = .wrctrl v ∧ t = (s.setRetain v).respond .ok 0#28) ∨
    (i = .scan ∧ t = scanLoop (s.window.length + 1) s.clearFrame) := by
  cases i with
  | append b => cases h; exact .inr (.inl ⟨b, rfl, rfl⟩)
  | scan => cases h; exact .inr (.inr (.inr (.inr ⟨rfl, rfl⟩)))
  | wrctrl v => cases h; exact .inr (.inr (.inr (.inl ⟨v, rfl, rfl⟩)))
  | consume n =>
    simp only [exec, execConsume] at h
    split at h <;> cases h
    · exact .inl ⟨_, _, rfl⟩
    · exact .inr (.inr (.inl ⟨n, rfl, by omega, rfl⟩))
  | peek off =>
    simp only [exec, execPeek] at h
    split at h <;> cases h <;> exact .inl ⟨_, _, rfl⟩
  | readf k =>
    simp only [exec, execReadf] at h
    split at h <;> cases h <;> exact .inl ⟨_, _, rfl⟩
  | rdreg r =>
    simp only [exec, execRdreg] at h
    split at h <;> cases h <;> exact .inl ⟨_, _, rfl⟩

/-- RDREG of an implemented register answers its value and changes nothing else (R161). -/
theorem exec_rdreg_of_readReg {r : Arg} {s : State} {d : Data} (h : s.readReg r = some d) :
    exec (.rdreg r) s = .next (s.respond .ok d) := by
  simp [exec, execRdreg, h]

/-! ### SCAN's loop writes neither CTRL nor the parameters -/

@[simp] theorem State.extract_retainLast (start len : Nat) (s : State) :
    (s.extract start len).retainLast = s.retainLast := by
  rcases extract_cases start len s with ⟨-, h⟩ | ⟨-, h⟩ <;> simp [h]

/-- SCAN reads the no-marker policy and never writes it (R26, R123). -/
theorem scanLoop_retainLast (fuel : Nat) (s : State) (h : s.window.length < fuel) :
    (scanLoop fuel s).retainLast = s.retainLast := by
  obtain ⟨k, d, u, -, -, hu, hend⟩ := scanLoop_cases fuel s h
  have hru : u.retainLast = s.retainLast := by rw [hu]
  rcases hend with ⟨-, hl⟩ | ⟨-, hl⟩ | ⟨start, len, -, hl⟩ <;> simp [hl, hru]

/-! ### The candidate frame (R128) -/

theorem candidateFrame_length (start len : Nat) (W : Window) (h : start + len + 6 ≤ W.length) :
    (candidateFrame start len W).length = len + 6 := by
  simp only [candidateFrame, List.length_take, List.length_drop]
  omega

/-- The candidate frame is the window read from the marker on. -/
theorem candidateFrame_getElem? (start len i : Nat) (W : Window) (h : i < len + 6) :
    (candidateFrame start len W)[i]? = W[start + i]? := by
  simp [candidateFrame, h]

/-- A candidate that a pass finds is a frame of R36 as soon as it validates: the pass itself has checked the markers, the size that LENGTH
declares and the capacity. -/
theorem candidateFrame_frameOk {p : Params} {W : Window} {start len : Nat} (hp : scanPass p W = .candidate start len)
    (hv : validate (candidateFrame start len W) = true) : FrameOk p (candidateFrame start len W) := by
  rcases scanPass_cases p W with ⟨h, -⟩ | ⟨h | h, -⟩ | ⟨_, h | h, -⟩ |
    ⟨start', len', lenByte, h, hlen, hin, hcap, hstx, hlb, hetx⟩ <;> rw [hp] at h <;> cases h
  have hsize := candidateFrame_length start len W hin
  refine ⟨?_, ?_, ?_, ?_, hv⟩
  · rw [candidateFrame_getElem? start len 3 W (by omega), hlb, hsize, hlen, Option.map_some]
  · rw [candidateFrame_getElem? start len 0 W (by omega), Nat.add_zero, hstx]
  · rw [List.getLast?_eq_getElem?, hsize, Nat.add_sub_assoc (by decide),
      candidateFrame_getElem? start len (len + 5) W (by omega), ← Nat.add_assoc, hetx]
  · omega

/-! ### The invariant of R36 -/

/-- The invariant survives every change that writes no parameter, does not lengthen the window, and holds no other frame. -/
theorem StateInv.of_shrink {s t : State} (h : StateInv s) (hp : t.params = s.params)
    (hw : t.window.length ≤ s.window.length) (hf : ∀ F ∈ t.frame, F ∈ s.frame) : StateInv t := by
  obtain ⟨hcap, hwf, hframe⟩ := h
  refine ⟨hp ▸ hcap, ?_, fun F hF => hp ▸ hframe F (hf F hF)⟩
  rw [Memory.wf, hp]
  exact hw.trans hwf

theorem respond_keeps_stateInv {s : State} (rc : ResultCode) (d : Data) (h : StateInv s) : StateInv (s.respond rc d) :=
  h.of_shrink rfl le_rfl fun _ hF => hF

theorem winDrop_keeps_stateInv {s : State} (n : Nat) (h : StateInv s) : StateInv (s.winDrop n) :=
  h.of_shrink rfl (by simp) fun _ hF => hF

theorem winAppend_keeps_stateInv {s : State} (b : Byte) (h : StateInv s) : StateInv (s.winAppend b) := by
  obtain ⟨hcap, hwf, hframe⟩ := h
  exact ⟨hcap, winAppend_keeps_wf b s hcap hwf, hframe⟩

theorem holdFrame_keeps_stateInv {s : State} {F : List Byte} (h : StateInv s) (hF : FrameOk s.params F) :
    StateInv (s.holdFrame F) := by
  obtain ⟨hcap, hwf, -⟩ := h
  exact ⟨hcap, hwf, by simpa using hF⟩

/-- Only a candidate that validates is held, so extraction keeps the invariant (R128..R130). -/
theorem extract_keeps_stateInv {s : State} {start len : Nat} (h : StateInv s)
    (hp : scanPass s.params s.window = .candidate start len) : StateInv (s.extract start len) := by
  rcases extract_cases start len s with ⟨hv, ht⟩ | ⟨-, ht⟩ <;> rw [ht]
  · exact respond_keeps_stateInv _ _
      (holdFrame_keeps_stateInv (winDrop_keeps_stateInv _ h) (candidateFrame_frameOk hp hv))
  · exact respond_keeps_stateInv _ _ (winDrop_keeps_stateInv _ h)

theorem scanLoop_keeps_stateInv {s : State} {fuel : Nat} (h : StateInv s) (hfuel : s.window.length < fuel) :
    StateInv (scanLoop fuel s) := by
  obtain ⟨k, d, u, -, -, hu, hend⟩ := scanLoop_cases fuel s hfuel
  have hinv : StateInv u := by
    rw [hu]
    exact h.of_shrink rfl (by simp) fun _ hF => hF
  rcases hend with ⟨-, ht⟩ | ⟨-, ht⟩ | ⟨start, len, hp, ht⟩ <;> rw [ht]
  · exact respond_keeps_stateInv _ _ (winDrop_keeps_stateInv _ hinv)
  · exact respond_keeps_stateInv _ _ hinv
  · exact extract_keeps_stateInv hinv hp

/-- Every command keeps the invariant. -/
theorem exec_keeps_stateInv {i : Instr} {s t : State} (h : StateInv s) (ht : exec i s = .next t) : StateInv t := by
  rcases exec_cases ht with ⟨rc, d, rfl⟩ | ⟨b, -, rfl⟩ | ⟨n, -, -, rfl⟩ | ⟨v, -, rfl⟩ | ⟨-, rfl⟩
  · exact respond_keeps_stateInv rc d h
  · exact respond_keeps_stateInv _ _ (winAppend_keeps_stateInv b h)
  · exact respond_keeps_stateInv _ _ (winDrop_keeps_stateInv _ h)
  · exact h.of_shrink rfl le_rfl fun _ hF => hF
  · have hclear : StateInv s.clearFrame := h.of_shrink rfl le_rfl (by simp)
    exact scanLoop_keeps_stateInv hclear (Nat.lt_succ_self _)

/-- Every command word, legal or not, keeps the invariant. -/
theorem runWord_keeps_stateInv {w : Word} {s t : State} (h : StateInv s) (ht : runWord w s = .next t) : StateInv t := by
  rcases runWord_cases w s with ⟨i, -, hr⟩ | ⟨e, -, hr⟩ <;> rw [hr] at ht
  · exact exec_keeps_stateInv h ht
  · cases ht
    exact respond_keeps_stateInv _ _ h

theorem awaitDelivery_keeps_stateInv {s : State} (h : StateInv s) : StateInv s.awaitDelivery := by
  rcases awaitDelivery_cases s with ⟨r, -, -, ht⟩ | ⟨-, ht⟩ <;> rw [ht]
  · exact h.of_shrink rfl le_rfl fun _ hF => hF
  · exact h

/-- Settles O56: a reset edge empties the window and the frame, an edge at the ports touches neither, and an accepted word is a command of
`runWord_keeps_stateInv`. -/
theorem stepKeepsTheInvariant : Obligations.StepKeepsTheInvariant := by
  intro s t h ht
  rcases step_cases s with ⟨-, hs⟩ | ⟨-, -, hs⟩ | ⟨-, -, -, hs⟩ | ⟨w, rest, -, -, -, hs⟩ <;> rw [hs] at ht
  · cases ht
    exact h.of_shrink rfl (by simp) (by simp)
  · cases ht
    exact awaitDelivery_keeps_stateInv h
  · cases ht
    exact h
  · have haccept : StateInv (s.accept w rest) := h.of_shrink rfl le_rfl fun _ hF => hF
    exact runWord_keeps_stateInv haccept ht

/-! ### What a command leaves unchanged -/

/-- Settles O52, by the cases of `exec_cases`; SCAN leaves RETAIN_LAST by `scanLoop_retainLast`. -/
theorem onlyScanDisturbsTheFrame : Obligations.OnlyScanDisturbsTheFrame := by
  intro i s t h
  rcases exec_cases h with ⟨rc, d, rfl⟩ | ⟨b, -, rfl⟩ | ⟨n, -, -, rfl⟩ | ⟨v, rfl, rfl⟩ | ⟨rfl, rfl⟩
  · exact ⟨fun _ => ⟨rfl, rfl⟩, fun _ => rfl⟩
  · exact ⟨fun _ => ⟨rfl, rfl⟩, fun _ => rfl⟩
  · exact ⟨fun _ => ⟨rfl, rfl⟩, fun _ => rfl⟩
  · exact ⟨fun _ => ⟨rfl, rfl⟩, fun hv => absurd rfl (hv v)⟩
  · exact ⟨fun hi => absurd rfl hi, fun _ => scanLoop_retainLast _ s.clearFrame (Nat.lt_succ_self _)⟩

/-! ### Response words with code OK -/

/-- An OK response word has the value of its data: RC 0x0 stands above DATA (R66, R67). -/
@[simp] theorem rspWord_ok_toNat (d : Data) : (rspWord .ok d).toNat = d.toNat :=
  (BitVec.toNat_append 0#4 d).trans (by simp)

/-- Settles O46: `|W| ≤ CAP` keeps the occupancy within OCC's 16 bits, so the 28-bit data holds it whole. -/
theorem occReadsTheOccupancy : Obligations.OccReadsTheOccupancy := by
  rintro s ⟨-, hwf, -⟩
  have hocc : s.window.length < 65536 := lt_of_le_of_lt hwf s.params.cap.isLt
  have hval : (rspWord .ok (BitVec.ofNat 28 s.window.length)).toNat = s.window.length := by
    rw [rspWord_ok_toNat, BitVec.toNat_ofNat]
    exact Nat.mod_eq_of_lt (by omega)
  exact ⟨_, _, exec_rdreg_of_readReg rfl, rfl, hval, by omega⟩

/-- CAPACITY's response is the parameter in the 16 low bits (R28, R66). -/
theorem rspWord_ok_capacity (c : BitVec 16) : rspWord .ok (c.zeroExtend 28) = 0#16 ++ c := by
  apply BitVec.eq_of_toNat_eq
  have hdata : (c.zeroExtend 28).toNat = c.toNat := BitVec.toNat_setWidth_of_le (by decide)
  have hword : (0#16 ++ c : Word).toNat = c.toNat := (BitVec.toNat_append 0#16 c).trans (by simp)
  rw [rspWord_ok_toNat, hdata, hword]

/-- CONST's response, with the constant HEADER_LEN in bits [27:24] (R31, R66). -/
theorem rspWord_ok_const (p : Params) :
    rspWord .ok (constData p) = 0x0#4 ++ 4#4 ++ p.posType ++ p.etx ++ p.stx := by
  apply BitVec.eq_of_toNat_eq
  rw [rspWord_ok_toNat]
  simp only [constData, BitVec.toNat_append]
  rfl

/-! ### Reset -/

/-- Settles O54: the values of R35 are the fields of `State.resetWith`, and the three registers read them back. -/
theorem resetLeavesTheResetValues : Obligations.ResetLeavesTheResetValues := by
  refine ⟨fun p => ⟨rfl, rfl, rfl, rfl, rfl, rfl, rfl, rfl, ?_, ?_, ?_⟩, rfl⟩
  · exact exec_rdreg_of_readReg (d := 0#28) rfl
  · rw [← rspWord_ok_capacity]
    rfl
  · rw [← rspWord_ok_const]
    rfl

/-- The reset state meets the invariant of R36 when `CAP` is legal: its window is empty and no frame is held. -/
theorem stateInv_resetWith (p : Params) (h : p.legal) : StateInv (State.resetWith p) :=
  ⟨h, resetWith_memory_wf p, by simp⟩

theorem portInv_resetWith (p : Params) : PortInv (State.resetWith p) :=
  ⟨rfl, rfl⟩

/-- Settles O55; the default `CAP` of R8 is legal, whatever POS_TYPE is. -/
theorem resetMeetsTheInvariants : Obligations.ResetMeetsTheInvariants :=
  ⟨fun p h => ⟨stateInv_resetWith p h, portInv_resetWith p⟩,
    stateInv_resetWith Config.params (by decide), portInv_resetWith Config.params⟩

end Sys2Proof.Machine
end

section
/-! PROOFS. The family 20_memory.md: the window primitives (R44, R45), streams of APPENDs (R47, R48), sliding offsets (R41), the commands
without side effect (R50), and the circular storage (R56). -/

namespace Sys2Proof.Machine

/-! ### APPEND and the most recent bytes -/

theorem exec_append (b : Byte) (s : State) : exec (.append b) s = .next ((s.winAppend b).respond .ok 0#28) := rfl

theorem rspWord_ok_zero : rspWord .ok 0#28 = 0x00000000#32 := by decide

/-- Settles O16: WinAppend's two cases are the branches of `windowPush`, and OK with no data is the zero word. -/
theorem appendAddsNewestAndEvictsOldest : Obligations.AppendAddsNewestAndEvictsOldest := by
  intro b s
  rw [exec_append, State.respond, rspWord_ok_zero]
  rfl

/-- Nothing is lost of a sequence that fits. -/
theorem lastBytes_of_length_le {cap : Nat} {S : List Byte} (h : S.length ≤ cap) : lastBytes cap S = S := by
  simp [lastBytes, Nat.sub_eq_zero_of_le h]

/-- WinAppend keeps the last `CAP` bytes of the window and the new byte (R44, R48). -/
theorem windowPush_eq_lastBytes {cap : Nat} (b : Byte) {W : Window} (hcap : 0 < cap) (hW : W.length ≤ cap) :
    windowPush cap b W = lastBytes cap (W ++ [b]) := by
  by_cases hlt : W.length < cap
  · rw [windowPush_of_lt cap b W hlt, lastBytes_of_length_le (by simpa using hlt)]
  · have hevict : (W ++ [b]).length - cap = 1 := by
      rw [List.length_append, List.length_singleton]
      omega
    rw [windowPush, if_neg hlt, lastBytes, hevict, List.drop_append_of_le_length (by omega)]

/-- Bytes that were already dropped are not among the last `CAP` of a longer stream (R47). -/
theorem lastBytes_lastBytes_append (cap : Nat) (S T : List Byte) :
    lastBytes cap (lastBytes cap S ++ T) = lastBytes cap (S ++ T) := by
  have hsplit : lastBytes cap S ++ T = (S ++ T).drop (S.length - cap) :=
    (List.drop_append_of_le_length (Nat.sub_le _ _)).symm
  rw [hsplit, lastBytes, lastBytes, List.drop_drop, List.length_drop, List.length_append]
  congr 1
  omega

/-- Settles O22, by induction on the stream: one APPEND leaves the last `CAP` bytes of `W ++ [b]`, and the rest of the stream pushes
them on. -/
theorem appendStreamKeepsLastCapacityBytes : Obligations.AppendStreamKeepsLastCapacityBytes := by
  intro bs
  induction bs with
  | nil =>
    intro s _ hW
    rw [List.append_nil, lastBytes_of_length_le hW]
    rfl
  | cons b bs ih =>
    intro s hp hW
    have hpush : (s.winAppend b).window = lastBytes s.params.capacity (s.window ++ [b]) :=
      windowPush_eq_lastBytes b (Nat.lt_of_lt_of_le (by decide) hp) hW
    rw [List.map_cons, execAll, exec_append]
    dsimp only
    rw [ih ((s.winAppend b).respond .ok 0#28) hp (winAppend_keeps_wf b s hp hW)]
    simp only [State.respond_window, State.respond_params, State.winAppend_params, State.respond_rsp, hpush,
      lastBytes_lastBytes_append, rspWord_ok_zero, List.append_assoc, List.singleton_append, ite_self,
      if_neg (List.cons_ne_nil b bs)]
    rfl

/-! ### Sliding windows -/

theorem windowPush_slides (cap : Nat) (b : Byte) (W : Window) : ∃ V, V <:+ W ∧ windowPush cap b W = V ++ [b] :=
  ⟨_, List.drop_suffix _ W, windowPush_eq_drop cap b W⟩

@[simp] theorem State.extract_window (start len : Nat) (s : State) :
    (s.extract start len).window = s.window.drop (start + len + 6) := by
  rcases extract_cases start len s with ⟨-, h⟩ | ⟨-, h⟩ <;> simp [h]

/-- SCAN only drops bytes from the front (R45, R120). -/
theorem scanLoop_window_suffix (fuel : Nat) (s : State) (h : s.window.length < fuel) :
    (scanLoop fuel s).window <:+ s.window := by
  obtain ⟨k, d, u, -, -, hu, hend⟩ := scanLoop_cases fuel s h
  have hsuf : u.window <:+ s.window := by
    rw [hu]
    exact List.drop_suffix d s.window
  rcases hend with ⟨-, ht⟩ | ⟨-, ht⟩ | ⟨start, len, -, ht⟩ <;> rw [ht]
  · exact (List.drop_suffix _ u.window).trans hsuf
  · exact hsuf
  · rw [State.extract_window]
    exact (List.drop_suffix _ u.window).trans hsuf

theorem addedByte_eq_nil {i : Instr} (h : ∀ b, i ≠ .append b) : addedByte i = [] := by
  cases i with
  | append b => exact absurd rfl (h b)
  | _ => rfl

/-- A command that is no APPEND leaves a suffix of the window. -/
theorem exec_window_suffix {i : Instr} {s t : State} (hi : ∀ b, i ≠ .append b) (h : exec i s = .next t) :
    t.window <:+ s.window := by
  rcases exec_cases h with ⟨rc, d, rfl⟩ | ⟨b, rfl, -⟩ | ⟨n, -, -, rfl⟩ | ⟨v, -, rfl⟩ | ⟨-, rfl⟩
  · exact List.suffix_rfl
  · exact absurd rfl (hi b)
  · exact List.drop_suffix n.toNat s.window
  · exact List.suffix_rfl
  · exact scanLoop_window_suffix _ s.clearFrame (Nat.lt_succ_self _)

/-- Every command leaves a suffix of the window, followed by the byte it adds (R41, R42). -/
theorem exec_window_slides {i : Instr} {s t : State} (h : exec i s = .next t) :
    ∃ V, V <:+ s.window ∧ t.window = V ++ addedByte i := by
  by_cases hi : ∃ b, i = .append b
  · obtain ⟨b, rfl⟩ := hi
    cases h
    exact windowPush_slides s.params.capacity b s.window
  · have hne : ∀ b, i ≠ .append b := fun b e => hi ⟨b, e⟩
    exact ⟨t.window, exec_window_suffix hne h, by rw [addedByte_eq_nil hne, List.append_nil]⟩

/-- Settles O24: the bytes in front of the suffix that is left are the `n` that were removed, and an offset moves by their number. -/
theorem windowOnlySlides : Obligations.WindowOnlySlides := by
  intro i s t h
  obtain ⟨V, ⟨pre, hW⟩, ht⟩ := exec_window_slides h
  refine ⟨pre.length, ?_, ?_, fun k hle hlt => ?_⟩
  · simp [← hW]
  · rw [← hW, List.drop_left, ht]
  · have hk : k - pre.length < V.length := by
      rw [← hW, List.length_append] at hlt
      omega
    rw [State.windowByte, State.windowByte, ht, ← hW, List.getElem?_append_left hk, List.getElem?_append_right hle]

/-! ### The commands without side effect -/

/-- A command's answer replaces the response that was there. -/
@[simp] theorem State.respond_respond (rc rc' : ResultCode) (d d' : Data) (s : State) :
    (s.respond rc d).respond rc' d' = s.respond rc' d' := rfl

theorem exec_peek_respond (off : Arg) (rc : ResultCode) (d : Data) (s : State) :
    exec (.peek off) (s.respond rc d) = exec (.peek off) s := by
  have hsame : (s.respond rc d).windowByte off.toNat = s.windowByte off.toNat := rfl
  cases hb : s.windowByte off.toNat <;> simp [exec, execPeek, State.raiseError, hsame, hb]

theorem exec_readf_respond (k : Arg) (rc : ResultCode) (d : Data) (s : State) :
    exec (.readf k) (s.respond rc d) = exec (.readf k) s := by
  have hsame : (s.respond rc d).frameByte k.toNat = s.frameByte k.toNat := rfl
  cases hb : s.frameByte k.toNat <;> simp [exec, execReadf, State.raiseError, hsame, hb]

theorem exec_rdreg_respond (r : Arg) (rc : ResultCode) (d : Data) (s : State) :
    exec (.rdreg r) (s.respond rc d) = exec (.rdreg r) s := by
  have hsame : (s.respond rc d).readReg r = s.readReg r := rfl
  cases hb : s.readReg r <;> simp [exec, execRdreg, State.raiseError, hsame, hb]

/-- PEEK, READF and RDREG only answer (R50). -/
theorem exec_read_answers {i : Instr} {s t : State}
    (hi : (∃ off, i = .peek off) ∨ (∃ k, i = .readf k) ∨ (∃ r, i = .rdreg r)) (h : exec i s = .next t) :
    ∃ rc d, t = s.respond rc d := by
  rcases exec_cases h with ht | ⟨b, rfl, -⟩ | ⟨n, rfl, -, -⟩ | ⟨v, rfl, -⟩ | ⟨rfl, -⟩
  · exact ht
  all_goals simp at hi

/-- Settles O51: the three commands only answer, and none of them sees the response that the first run left. -/
theorem readCommandsAreIdempotent : Obligations.ReadCommandsAreIdempotent := by
  intro i s t hi h
  obtain ⟨rc, d, rfl⟩ := exec_read_answers hi h
  refine ⟨rfl, Eq.trans ?_ h⟩
  rcases hi with ⟨off, rfl⟩ | ⟨k, rfl⟩ | ⟨r, rfl⟩
  · exact exec_peek_respond off rc d s
  · exact exec_readf_respond k rc d s
  · exact exec_rdreg_respond r rc d s

/-! ### The circular storage (R56) -/

@[simp] theorem ringWindow_length (r : RingStorage) : (ringWindow r).length = r.count := by
  simp [ringWindow]

theorem ringWindow_getElem (r : RingStorage) (i : Nat) (h : i < (ringWindow r).length) :
    (ringWindow r)[i] = r.mem.getD (ringSlot r i) 0#8 := by
  simp [ringWindow]

theorem ringSlot_lt {cap : Nat} {r : RingStorage} (h : r.ok cap) (i : Nat) : ringSlot r i < r.mem.length := by
  obtain ⟨hlen, hrp, -⟩ := h
  exact Nat.mod_lt _ (by omega)

/-- Two window offsets within the capacity have different places. -/
theorem ringSlot_inj {r : RingStorage} {i j : Nat} (hi : i < r.mem.length) (hj : j < r.mem.length)
    (h : ringSlot r i = ringSlot r j) : i = j := by
  have hmod : i ≡ j [MOD r.mem.length] := Nat.ModEq.add_left_cancel' r.rp h
  exact hmod.eq_of_lt_of_lt hi hj

/-- Advancing the read pointer by `n` is reading `n` offsets further on. -/
theorem ringSlot_ringDrop (n i : Nat) (r : RingStorage) : ringSlot (ringDrop n r) i = ringSlot r (n + i) := by
  simp only [ringSlot, ringDrop, Nat.mod_add_mod, Nat.add_assoc]

theorem ringDrop_ok {cap n : Nat} {r : RingStorage} (h : r.ok cap) : (ringDrop n r).ok cap := by
  have hrp : (ringDrop n r).rp < r.mem.length := ringSlot_lt h n
  obtain ⟨hlen, -, hcount⟩ := h
  exact ⟨hlen, hlen ▸ hrp, (Nat.sub_le _ _).trans hcount⟩

/-- WinDrop on the storage is WinDrop on the window (R45). -/
theorem ringWindow_ringDrop (n : Nat) (r : RingStorage) : ringWindow (ringDrop n r) = (ringWindow r).drop n := by
  apply List.ext_getElem
  · simp [ringDrop]
  · intro i _ _
    rw [List.getElem_drop, ringWindow_getElem, ringWindow_getElem, ringSlot_ringDrop]
    rfl

/-- With room, the storage after WinAppend is the old one with one place written and one byte more. -/
theorem ringAppend_of_lt (b : Byte) {r : RingStorage} (h : r.count < r.mem.length) :
    ringAppend b r = { mem := r.mem.set (ringSlot r r.count) b, rp := r.rp, count := r.count + 1 } := by
  simp [ringAppend, h]

/-- Storing into a full storage is dropping its oldest byte and then storing: the freed place is the one stored to. -/
theorem ringAppend_of_full (b : Byte) {r : RingStorage} (hpos : 0 < r.count) (hfull : r.count = r.mem.length) :
    ringAppend b r = ringAppend b (ringDrop 1 r) := by
  have hcount : (ringDrop 1 r).count + 1 = r.count := Nat.sub_add_cancel hpos
  have hslot : ringSlot (ringDrop 1 r) (ringDrop 1 r).count = ringSlot r r.count := by
    rw [ringSlot_ringDrop, Nat.add_comm, hcount]
  have hroom : (ringDrop 1 r).count < (ringDrop 1 r).mem.length := by
    change (ringDrop 1 r).count < r.mem.length
    omega
  rw [ringAppend_of_lt b hroom, hslot, hcount]
  simp [ringAppend, ringDrop, hfull]

theorem ringAppend_ok_of_lt {cap : Nat} (b : Byte) {r : RingStorage} (h : r.ok cap) (hlt : r.count < cap) :
    (ringAppend b r).ok cap := by
  obtain ⟨rfl, hrp, -⟩ := h
  rw [ringAppend_of_lt b hlt]
  exact ⟨List.length_set, hrp, hlt⟩

/-- With room, the place written is the new offset's and no other offset's. -/
theorem ringWindow_ringAppend_of_lt {cap : Nat} (b : Byte) {r : RingStorage} (h : r.ok cap) (hlt : r.count < cap) :
    ringWindow (ringAppend b r) = ringWindow r ++ [b] := by
  have ⟨hlen, _, _⟩ := h
  have hroom : r.count < r.mem.length := hlen ▸ hlt
  have hslot : ∀ i, ringSlot (ringAppend b r) i = ringSlot r i := by
    intro i
    simp [ringAppend_of_lt b hroom, ringSlot]
  have hnew : (ringAppend b r).mem[ringSlot r r.count]? = some b := by
    simp [ringAppend_of_lt b hroom, ringSlot_lt h]
  have hold : ∀ i < r.count, (ringAppend b r).mem[ringSlot r i]? = r.mem[ringSlot r i]? := by
    intro i hi
    have hne : ringSlot r r.count ≠ ringSlot r i := fun e =>
      (ringSlot_inj hroom (hi.trans hroom) e).not_gt hi
    rw [ringAppend_of_lt b hroom, List.getElem?_set_ne hne]
  have hcount : (ringAppend b r).count = r.count + 1 := by rw [ringAppend_of_lt b hroom]
  simp only [ringWindow, hslot, hcount, List.range_succ, List.map_append, List.map_singleton,
    List.getD_eq_getElem?_getD, hnew, Option.getD_some]
  congr 1
  exact List.map_congr_left fun i hi => by rw [hold i (List.mem_range.1 hi)]

/-- WinAppend on the storage keeps it well formed and is WinAppend on the window (R44): with room directly, and full after the drop of
the oldest byte. -/
theorem ringAppend_refines {cap : Nat} (b : Byte) {r : RingStorage} (h : r.ok cap) :
    (ringAppend b r).ok cap ∧ ringWindow (ringAppend b r) = windowPush cap b (ringWindow r) := by
  have ⟨hlen, _, hcount⟩ := h
  by_cases hlt : r.count < cap
  · refine ⟨ringAppend_ok_of_lt b h hlt, ?_⟩
    rw [ringWindow_ringAppend_of_lt b h hlt, windowPush_of_lt cap b _ (by simpa using hlt)]
  · have hroom : (ringDrop 1 r).count < cap := by
      simp only [ringDrop]
      omega
    have hpos : 0 < r.count := by omega
    rw [ringAppend_of_full b hpos (by omega)]
    refine ⟨ringAppend_ok_of_lt b (ringDrop_ok h) hroom, ?_⟩
    rw [ringWindow_ringAppend_of_lt b (ringDrop_ok h) hroom, ringWindow_ringDrop, windowPush,
      if_neg (by simpa using hlt)]

/-- Settles O26: the storage simulates WinAppend by `ringAppend_refines` and WinDrop by `ringWindow_ringDrop`. -/
theorem ringStorageRefinesTheWindow : Obligations.RingStorageRefinesTheWindow :=
  fun _ r h => ⟨ringWindow_length r, fun b => ringAppend_refines b h,
    fun n _ => ⟨ringDrop_ok h, ringWindow_ringDrop n r⟩⟩

end Sys2Proof.Machine
end

section
/-! PROOFS. The family 30_encoding.md: the word of a command and the command of a word (R62..R65, R74), the result codes (R67, R68), and
the handshake at the ports (R61, R66, R77). -/

namespace Sys2Proof.Machine

/-! ### The fields of a command word (R62) -/

@[simp] theorem opField_wordOf (op : BitVec 4) (a : Arg) : opField (wordOf op a) = op :=
  (BitVec.extractLsb'_append_eq_of_le (xhi := op ++ 0#12) (by decide)).trans BitVec.extractLsb'_append_eq_left

@[simp] theorem rsvField_wordOf (op : BitVec 4) (a : Arg) : rsvField (wordOf op a) = 0#12 :=
  (BitVec.extractLsb'_append_eq_of_le (xhi := op ++ 0#12) (by decide)).trans BitVec.extractLsb'_append_eq_right

@[simp] theorem argField_wordOf (op : BitVec 4) (a : Arg) : argField (wordOf op a) = a :=
  BitVec.extractLsb'_append_eq_right

/-- OP and ARG are all of a word whose RSV is 0. -/
theorem wordOf_fields {w : Word} (h : rsvField w = 0#12) : wordOf (opField w) (argField w) = w := by
  have hhigh : opField w ++ rsvField w = w.extractLsb' 16 16 :=
    BitVec.extractLsb'_append_extractLsb'_eq_extractLsb' rfl
  rw [wordOf, ← h, hhigh]
  exact BitVec.extractLsb'_append_extractLsb' (x := w) (w := 16) (len := 16)

theorem eq_wordOf_iff (w : Word) (op : BitVec 4) (a : Arg) :
    w = wordOf op a ↔ opField w = op ∧ rsvField w = 0#12 ∧ argField w = a := by
  constructor
  · rintro rfl
    simp
  · rintro ⟨rfl, hrsv, rfl⟩
    exact (wordOf_fields hrsv).symm

theorem extractLsb'_argField {start len : Nat} (w : Word) (h : start + len ≤ 16) :
    (argField w).extractLsb' start len = w.extractLsb' start len := by
  ext i hi
  have : start + i < 16 := by omega
  simp [argField, this]

theorem getLsbD_zero_argField (w : Word) : (argField w).getLsbD 0 = w.getLsbD 0 := by
  simp [argField]

theorem extractLsb'_high_eq_zero_iff {n m : Nat} (x : BitVec (n + m)) :
    x.extractLsb' m n = 0#n ↔ x = 0#n ++ x.extractLsb' 0 m := by
  have hsplit : x.extractLsb' m n ++ x.extractLsb' 0 m = x := BitVec.extractLsb'_append_extractLsb'
  constructor
  · intro h
    rw [← h, hsplit]
  · intro h
    rw [h]
    exact BitVec.extractLsb'_append_eq_left

/-- APPEND's reserved ARG bits are 0 exactly when ARG is its byte (R64). -/
theorem arg_eq_byte_iff (a : Arg) : a.extractLsb' 8 8 = 0#8 ↔ a = 0#8 ++ a.extractLsb' 0 8 :=
  extractLsb'_high_eq_zero_iff (n := 8) (m := 8) a

/-- WRCTRL's reserved ARG bits are 0 exactly when ARG is its one bit (R64). -/
theorem arg_eq_bit_iff (a : Arg) : a.extractLsb' 1 15 = 0#15 ↔ a = 0#15 ++ BitVec.ofBool (a.getLsbD 0) := by
  have hbit : a.extractLsb' 0 1 = BitVec.ofBool (a.getLsbD 0) := by
    ext i hi
    obtain rfl : i = 0 := by omega
    simp
  rw [← hbit]
  exact extractLsb'_high_eq_zero_iff (n := 15) (m := 1) a

@[simp] theorem extractLsb'_append_byte (b : Byte) : (0#8 ++ b : Arg).extractLsb' 0 8 = b :=
  BitVec.extractLsb'_append_eq_right

@[simp] theorem extractLsb'_append_byte_high (b : Byte) : (0#8 ++ b : Arg).extractLsb' 8 8 = 0#8 :=
  BitVec.extractLsb'_append_eq_left

/-! ### The command of a word (R63..R65) -/

/-- An opcode and an ARG name a command exactly when they are that command's own (R63, R64). -/
theorem decodeArg_eq_ok_iff (op : Nat) (a : Arg) (i : Instr) :
    decodeArg op a = .ok i ↔ op = i.opcode.toNat ∧ a = i.arg := by
  constructor
  · intro h
    unfold decodeArg at h
    split at h
    case h_1 =>
      split at h
      next hres => cases h; exact ⟨rfl, (arg_eq_byte_iff a).1 hres⟩
      next => cases h
    case h_2 =>
      split at h
      next hres => cases h; exact ⟨rfl, hres⟩
      next => cases h
    case h_7 =>
      split at h
      next hres => cases h; exact ⟨rfl, (arg_eq_bit_iff a).1 hres⟩
      next => cases h
    case h_8 => cases h
    all_goals cases h; exact ⟨rfl, rfl⟩
  · rintro ⟨rfl, rfl⟩
    cases i with
    | append b =>
      simp [decodeArg, Instr.opcode, Instr.arg, extractLsb'_append_byte, extractLsb'_append_byte_high]
    | wrctrl v => cases v <;> rfl
    | _ => rfl

theorem decodeArg_of_not_assigned {op : Nat} (a : Arg) (h : opcodeAssigned op = false) :
    decodeArg op a = .error .reservedOpcode := by
  have hout : op < 1 ∨ 7 < op := by
    simp only [opcodeAssigned, Bool.and_eq_false_iff, decide_eq_false_iff_not] at h
    omega
  unfold decodeArg
  split
  case h_8 => rfl
  all_goals omega

/-- With RSV = 0 a word is decoded from OP and ARG alone. -/
theorem decode_of_rsv {w : Word} (h : rsvField w = 0#12) : decode w = decodeArg (opField w).toNat (argField w) := by
  cases ho : opcodeAssigned (opField w).toNat with
  | true => simp [decode, ho, h]
  | false => simp [decode, ho, decodeArg_of_not_assigned]

theorem rsvField_of_decode {w : Word} {i : Instr} (h : decode w = .ok i) : rsvField w = 0#12 := by
  unfold decode at h
  split at h
  · split at h
    · assumption
    · cases h
  · cases h

/-- The decoder and the encoder are inverse: a word is decoded to a command exactly when it is that command's word. -/
theorem decode_eq_ok_iff (w : Word) (i : Instr) : decode w = .ok i ↔ w = encode i := by
  rw [encode, eq_wordOf_iff]
  constructor
  · intro h
    have hrsv := rsvField_of_decode h
    rw [decode_of_rsv hrsv, decodeArg_eq_ok_iff] at h
    obtain ⟨hop, harg⟩ := h
    exact ⟨BitVec.eq_of_toNat_eq hop, hrsv, harg⟩
  · rintro ⟨hop, hrsv, harg⟩
    rw [decode_of_rsv hrsv, decodeArg_eq_ok_iff]
    exact ⟨congrArg BitVec.toNat hop, harg⟩

/-- Settles O1, by `decode_eq_ok_iff`. -/
theorem decodeOfEncodeIsTheInstruction : Obligations.DecodeOfEncodeIsTheInstruction :=
  fun i => (decode_eq_ok_iff (encode i) i).2 rfl

/-- Settles O2, by `decode_eq_ok_iff`. -/
theorem encodeOfDecodeIsTheWord : Obligations.EncodeOfDecodeIsTheWord :=
  fun w i h => ((decode_eq_ok_iff w i).1 h).symm

/-! ### The masks of the opcode map (R63) -/

theorem opField_and (w m : Word) : opField (w &&& m) = opField w &&& opField m := BitVec.extractLsb'_and

theorem rsvField_and (w m : Word) : rsvField (w &&& m) = rsvField w &&& rsvField m := BitVec.extractLsb'_and

theorem argField_and (w m : Word) : argField (w &&& m) = argField w &&& argField m := BitVec.extractLsb'_and

/-- A mask that keeps OP and RSV compares them whole, and ARG under the mask's own ARG bits. -/
theorem and_mask_eq_wordOf_iff {m : Word} (hop : opField m = BitVec.allOnes 4) (hrsv : rsvField m = BitVec.allOnes 12)
    (w : Word) (op : BitVec 4) :
    w &&& m = wordOf op 0#16 ↔ opField w = op ∧ rsvField w = 0#12 ∧ argField w &&& argField m = 0#16 := by
  rw [eq_wordOf_iff, opField_and, rsvField_and, argField_and, hop, hrsv, BitVec.and_allOnes, BitVec.and_allOnes]

theorem and_highMask_eq_zero_iff {n m : Nat} (x : BitVec (n + m)) :
    x &&& (BitVec.allOnes n ++ 0#m) = 0#(n + m) ↔ x.extractLsb' m n = 0#n := by
  have hsplit : x.extractLsb' m n ++ x.extractLsb' 0 m = x := BitVec.extractLsb'_append_extractLsb'
  have hand : x &&& (BitVec.allOnes n ++ 0#m) = x.extractLsb' m n ++ 0#m := by
    conv_lhs => rw [← hsplit]
    rw [BitVec.and_append, BitVec.and_allOnes, BitVec.and_zero]
  rw [hand]
  constructor
  · intro h
    have := congrArg (BitVec.extractLsb' m n) h
    rwa [BitVec.extractLsb'_append_eq_left, BitVec.extractLsb'_zero] at this
  · intro h
    rw [h, BitVec.zero_append_zero]

/-- PEEK, CONSUME, READF and RDREG: their masks leave ARG free. -/
theorem and_argFreeMask_iff (w : Word) (op : BitVec 4) :
    w &&& 0xFFFF0000#32 = wordOf op 0#16 ↔ w = wordOf op (argField w) := by
  have hfree : argField w &&& argField 0xFFFF0000#32 = 0#16 := BitVec.and_zero
  rw [and_mask_eq_wordOf_iff (by decide) (by decide), eq_wordOf_iff]
  simp only [hfree, and_true]

/-- APPEND: its mask leaves the byte free. -/
theorem and_byteFreeMask_iff (w : Word) (op : BitVec 4) :
    w &&& 0xFFFFFF00#32 = wordOf op 0#16 ↔ w = wordOf op (0#8 ++ w.extractLsb' 0 8) := by
  have hmask : argField w &&& argField 0xFFFFFF00#32 = 0#16 ↔ argField w = 0#8 ++ w.extractLsb' 0 8 := by
    rw [← extractLsb'_argField w (by decide), ← arg_eq_byte_iff]
    exact and_highMask_eq_zero_iff (n := 8) (m := 8) (argField w)
  rw [and_mask_eq_wordOf_iff (by decide) (by decide), eq_wordOf_iff, hmask]

/-- WRCTRL: its mask leaves bit 0 free. -/
theorem and_bitFreeMask_iff (w : Word) (op : BitVec 4) :
    w &&& 0xFFFFFFFE#32 = wordOf op 0#16 ↔ w = wordOf op (0#15 ++ BitVec.ofBool (w.getLsbD 0)) := by
  have hmask : argField w &&& argField 0xFFFFFFFE#32 = 0#16 ↔ argField w = 0#15 ++ BitVec.ofBool (w.getLsbD 0) := by
    rw [← getLsbD_zero_argField, ← arg_eq_bit_iff]
    exact and_highMask_eq_zero_iff (n := 15) (m := 1) (argField w)
  rw [and_mask_eq_wordOf_iff (by decide) (by decide), eq_wordOf_iff, hmask]

/-! ### The words that are no command (R64) -/

theorem illegalEncoding_iff_fields (w : Word) :
    IllegalEncoding w ↔ opField w = 0#4 ∨ 8#4 ≤ opField w ∨ rsvField w ≠ 0#12 ∨
      (opField w = 1#4 ∧ (argField w).extractLsb' 8 8 ≠ 0#8) ∨ (opField w = 2#4 ∧ argField w ≠ 0#16) ∨
      (opField w = 7#4 ∧ (argField w).extractLsb' 1 15 ≠ 0#15) := by
  rw [extractLsb'_argField w (by decide), extractLsb'_argField w (by decide)]

theorem not_illegalEncoding_encode (i : Instr) : ¬ IllegalEncoding (encode i) := by
  rw [illegalEncoding_iff_fields, encode, opField_wordOf, rsvField_wordOf, argField_wordOf]
  cases i with
  | append b =>
    simp [Instr.opcode, Instr.arg, extractLsb'_append_byte_high b]
  | wrctrl v => cases v <;> decide
  | _ => simp [Instr.opcode, Instr.arg]

/-- The opcodes that R64 does not reserve are the seven of R63. -/
theorem opcode_of_not_reserved :
    ∀ op : BitVec 4, op ≠ 0#4 → ¬ 8#4 ≤ op →
      op = 1#4 ∨ op = 2#4 ∨ op = 3#4 ∨ op = 4#4 ∨ op = 5#4 ∨ op = 6#4 ∨ op = 7#4 := by
  decide

/-- A word that R64 does not list is some command's word. -/
theorem exists_encode_of_legal {w : Word} (h : ¬ IllegalEncoding w) : ∃ i, w = encode i := by
  rw [illegalEncoding_iff_fields] at h
  push Not at h
  obtain ⟨h0, h8, hrsv, hbyte, hscan, hbit⟩ := h
  have hword : ∀ i : Instr, opField w = i.opcode → argField w = i.arg → ∃ i, w = encode i :=
    fun i hop harg => ⟨i, (eq_wordOf_iff w i.opcode i.arg).2 ⟨hop, hrsv, harg⟩⟩
  rcases opcode_of_not_reserved _ h0 (by simpa using h8) with ho | ho | ho | ho | ho | ho | ho
  · exact hword (.append _) ho ((arg_eq_byte_iff _).1 (hbyte ho))
  · exact hword .scan ho (hscan ho)
  · exact hword (.peek _) ho rfl
  · exact hword (.consume _) ho rfl
  · exact hword (.readf _) ho rfl
  · exact hword (.rdreg _) ho rfl
  · exact hword (.wrctrl _) ho ((arg_eq_bit_iff _).1 (hbit ho))

theorem decode_of_legal {w : Word} (h : ¬ IllegalEncoding w) : ∃ i, decode w = .ok i := by
  obtain ⟨i, hi⟩ := exists_encode_of_legal h
  exact ⟨i, (decode_eq_ok_iff w i).2 hi⟩

theorem decode_ne_ok_of_illegal {w : Word} (h : IllegalEncoding w) (i : Instr) : decode w ≠ .ok i := by
  rw [Ne, decode_eq_ok_iff]
  rintro rfl
  exact not_illegalEncoding_encode i h

/-- Settles O3: each row's mask keeps OP, RSV and the reserved ARG bits, so that the test says that the word is the command's own, and a
reserved opcode is one of R64's illegal encodings. -/
theorem wordIsCommandExactlyWhenMaskMatches : Obligations.WordIsCommandExactlyWhenMaskMatches := by
  intro w
  refine ⟨?_, ?_, ?_, ?_, ?_, ?_, ?_, fun hres => decode_ne_ok_of_illegal (by tauto)⟩ <;> rw [decode_eq_ok_iff]
  · exact and_byteFreeMask_iff w 1#4
  · have hall : w &&& 0xFFFFFFFF#32 = w := BitVec.and_allOnes
    rw [hall]
    rfl
  · exact and_argFreeMask_iff w 3#4
  · exact and_argFreeMask_iff w 4#4
  · exact and_argFreeMask_iff w 5#4
  · exact and_argFreeMask_iff w 6#4
  · exact and_bitFreeMask_iff w 7#4

/-! ### What a word runs as -/

theorem runWord_of_decode {w : Word} {i : Instr} (s : State) (h : decode w = .ok i) : runWord w s = exec i s := by
  rw [runWord, h]

/-- An illegal word answers ILLEGAL_CMD (R64, R183). -/
theorem runWord_of_illegal {w : Word} (s : State) (h : IllegalEncoding w) :
    runWord w s = .next (s.raiseError .illegalCmd) := by
  rcases runWord_cases w s with ⟨i, hd, -⟩ | ⟨e, -, hr⟩
  · exact absurd hd (decode_ne_ok_of_illegal h i)
  · exact hr

/-- A legal word runs as the command whose opcode and ARG it holds. -/
theorem runWord_of_fields {w : Word} {i : Instr} (s : State) (h : ¬ IllegalEncoding w) (hop : opField w = i.opcode)
    (harg : argField w = i.arg) : runWord w s = exec i s := by
  have hrsv : rsvField w = 0#12 := by
    by_contra hne
    exact h (.inr (.inr (.inl hne)))
  exact runWord_of_decode s ((decode_eq_ok_iff w i).2 ((eq_wordOf_iff w i.opcode i.arg).2 ⟨hop, hrsv, harg⟩))

/-! ### The errors of the commands -/

theorem exec_peek_of_le {off : Arg} {s : State} (h : s.window.length ≤ off.toNat) :
    exec (.peek off) s = .next (s.raiseError .outOfRange) := by
  simp [exec, execPeek, (windowByte_eq_none_iff off.toNat s).2 h]

theorem exec_consume_of_lt {n : Arg} {s : State} (h : s.window.length < n.toNat) :
    exec (.consume n) s = .next (s.raiseError .outOfRange) := by
  simp [exec, execConsume, h]

theorem exec_consume_of_le {n : Arg} {s : State} (h : n.toNat ≤ s.window.length) :
    exec (.consume n) s = .next ((s.winDrop n.toNat).respond .ok 0#28) := by
  simp [exec, execConsume, h]

/-- There is no byte `i` exactly when no frame is held or the one that is held ends before it (R160). -/
theorem frameByte_eq_none_iff (i : Nat) (s : State) : s.frameByte i = none ↔ ∀ F ∈ s.frame, F.length ≤ i := by
  simp [State.frameByte]

theorem exec_readf_of_none {i : Arg} {s : State} (h : s.frameByte i.toNat = none) :
    exec (.readf i) s = .next (s.raiseError .outOfRange) := by
  simp [exec, execReadf, h]

/-- Registers 6..65535 are not implemented (R161). -/
theorem readReg_of_six_le {r : Arg} (s : State) (h : 6 ≤ r.toNat) : s.readReg r = none := by
  unfold State.readReg
  split
  case h_7 => rfl
  all_goals omega

theorem exec_rdreg_of_six_le {r : Arg} (s : State) (h : 6 ≤ r.toNat) :
    exec (.rdreg r) s = .next (s.raiseError .illegalCmd) := by
  simp [exec, execRdreg, readReg_of_six_le s h]

theorem raiseError_illegalCmd (s : State) : s.raiseError .illegalCmd = { s with rsp := some 0x20000000#32 } := rfl

theorem raiseError_outOfRange (s : State) : s.raiseError .outOfRange = { s with rsp := some 0x10000000#32 } := rfl

/-- Settles O5: `runWord_of_illegal` and `decode_of_legal` divide the words, and the other clauses are the errors of the four commands
that have one. -/
theorem illegalWordsAnswerIllegalCmd : Obligations.IllegalWordsAnswerIllegalCmd := by
  intro w s
  rw [← raiseError_illegalCmd, ← raiseError_outOfRange]
  refine ⟨runWord_of_illegal s, decode_of_legal, fun h hop hr => ?_, fun h hop hoff => ?_, fun h hop hn => ?_,
    fun h hop hF => ?_⟩
  · rw [runWord_of_fields (i := .rdreg (argField w)) s h hop rfl, exec_rdreg_of_six_le s hr]
  · rw [runWord_of_fields (i := .peek (argField w)) s h hop rfl, exec_peek_of_le hoff]
  · rw [runWord_of_fields (i := .consume (argField w)) s h hop rfl, exec_consume_of_lt hn]
  · rw [runWord_of_fields (i := .readf (argField w)) s h hop rfl,
      exec_readf_of_none ((frameByte_eq_none_iff _ s).2 hF)]

/-! ### The assembler (R74) -/

theorem wellFormed_eq_true : ∀ i : Instr, i.wellFormed = true
  | .append b => Laws.WellFormedFields.append b
  | .scan => Laws.WellFormedFields.scan
  | .peek off => Laws.WellFormedFields.peek off
  | .consume n => Laws.WellFormedFields.consume n
  | .readf i => Laws.WellFormedFields.readf i
  | .rdreg r => Laws.WellFormedFields.rdreg r
  | .wrctrl v => Laws.WellFormedFields.wrctrl v

/-- Laying fields side by side is adding them at their places. -/
theorem toNat_append_eq_add {n m : Nat} (x : BitVec n) (y : BitVec m) :
    (x ++ y).toNat = x.toNat * 2 ^ m + y.toNat := by
  rw [BitVec.toNat_append, ← Nat.shiftLeft_add_eq_or_of_lt y.isLt, Nat.shiftLeft_eq]

theorem arg_toNat (i : Instr) : i.arg.toNat = i.operand := by
  cases i with
  | append b => exact (toNat_append_eq_add 0#8 b).trans (by simp [Instr.operand])
  | wrctrl v => cases v <;> rfl
  | _ => rfl

/-- A command word as a number: `(OP << 28) | operand` (R74). -/
theorem encode_toNat (i : Instr) : (encode i).toNat = i.opcode.toNat * 2 ^ 28 + i.operand := by
  have hword : (encode i).toNat = (i.opcode ++ 0#12).toNat * 2 ^ 16 + i.arg.toNat :=
    toNat_append_eq_add (i.opcode ++ 0#12) i.arg
  rw [hword, toNat_append_eq_add, arg_toNat, BitVec.toNat_zero]
  omega

/-- A command's own opcode and operand assemble to its word. -/
theorem assembleCommand_instr (i : Instr) : assembleCommand i.opcode.toNat i.operand = some (encode i) := by
  have hwf : commandWellFormed i.opcode.toNat i.operand = true := wellFormed_eq_true i
  rw [assembleCommand, if_pos hwf, ← encode_toNat, BitVec.ofNat_toNat, BitVec.setWidth_eq]

/-- Every well-formed pair of numbers is the opcode and the operand of a command (R63, R74). -/
theorem exists_instr_of_wellFormed {op operand : Nat} (h : commandWellFormed op operand = true) :
    ∃ i : Instr, i.opcode.toNat = op ∧ i.operand = operand := by
  obtain ⟨⟨hlo, hhi⟩, hlt⟩ : (1 ≤ op ∧ op ≤ 7) ∧ operand < operandBound op := by
    simpa [commandWellFormed, opcodeAssigned, operandInRange] using h
  interval_cases op <;> simp only [operandBound] at hlt
  · exact ⟨.append (BitVec.ofNat 8 operand), rfl, Nat.mod_eq_of_lt hlt⟩
  · exact ⟨.scan, rfl, (Nat.lt_one_iff.1 hlt).symm⟩
  · exact ⟨.peek (BitVec.ofNat 16 operand), rfl, Nat.mod_eq_of_lt hlt⟩
  · exact ⟨.consume (BitVec.ofNat 16 operand), rfl, Nat.mod_eq_of_lt hlt⟩
  · exact ⟨.readf (BitVec.ofNat 16 operand), rfl, Nat.mod_eq_of_lt hlt⟩
  · exact ⟨.rdreg (BitVec.ofNat 16 operand), rfl, Nat.mod_eq_of_lt hlt⟩
  · interval_cases operand
    · exact ⟨.wrctrl false, rfl, rfl⟩
    · exact ⟨.wrctrl true, rfl, rfl⟩

/-- Settles O8: a pair that assembles is well formed, so it is some command's, and its word is that command's encoding. -/
theorem assembledCommandIsItsEncoding : Obligations.AssembledCommandIsItsEncoding := by
  refine ⟨assembleCommand_instr, fun op operand w h => ?_⟩
  have hwf : commandWellFormed op operand = true := by
    by_contra hwf
    simp [assembleCommand, hwf] at h
  obtain ⟨i, rfl, rfl⟩ := exists_instr_of_wellFormed hwf
  rw [assembleCommand_instr, Option.some.injEq] at h
  exact ⟨i, (decode_eq_ok_iff w i).2 h.symm, rfl, rfl⟩

/-! ### The response to a command (R66..R68) -/

@[simp] theorem rcField_rspWord (rc : ResultCode) (d : Data) : rcField (rspWord rc d) = rcCode rc :=
  BitVec.extractLsb'_append_eq_left

@[simp] theorem dataField_rspWord (rc : ResultCode) (d : Data) : dataField (rspWord rc d) = d :=
  BitVec.extractLsb'_append_eq_right

/-- How SCAN's loop ends: no frame is held beyond one held before, with NO_FRAME_YET or CHECKSUM_MISMATCH, or the frame that validates is
held and answered with FRAME_OK and its FRAME_INFO (R123..R130). -/
theorem scanLoop_result (fuel : Nat) (s : State) (h : s.window.length < fuel) :
    ((scanLoop fuel s).frame = s.frame ∧
      ∃ rc ∈ [ResultCode.noFrameYet, .checksumMismatch], (scanLoop fuel s).rsp = some (rspWord rc 0#28)) ∨
    ∃ F, (scanLoop fuel s).frame = some F ∧ validate F = true ∧
      (scanLoop fuel s).rsp = some (rspWord .frameOk (frameInfoOf F)) := by
  obtain ⟨k, d, u, -, -, hu, hend⟩ := scanLoop_cases fuel s h
  have hframe : u.frame = s.frame := by rw [hu]
  rcases hend with ⟨-, ht⟩ | ⟨-, ht⟩ | ⟨start, len, -, ht⟩
  · exact .inl ⟨by simp [ht, hframe], .noFrameYet, by simp, by simp [ht]⟩
  · exact .inl ⟨by simp [ht, hframe], .noFrameYet, by simp, by simp [ht]⟩
  · rcases extract_cases start len u with ⟨hv, he⟩ | ⟨-, he⟩
    · exact .inr ⟨_, by rw [ht, he]; rfl, hv, by rw [ht, he]; rfl⟩
    · exact .inl ⟨by simp [ht, he, hframe], .checksumMismatch, by simp, by simp [ht, he]⟩

/-- SCAN holds a frame exactly when it answers FRAME_OK (R121, R130). -/
theorem exec_scan_result {s t : State} (h : exec .scan s = .next t) :
    (t.frame = none ∧ ∃ rc ∈ [ResultCode.noFrameYet, .checksumMismatch], t.rsp = some (rspWord rc 0#28)) ∨
    ∃ F, t.frame = some F ∧ validate F = true ∧ t.rsp = some (rspWord .frameOk (frameInfoOf F)) := by
  cases h
  exact scanLoop_result _ s.clearFrame (Nat.lt_succ_self _)

/-- The result codes that R67's table lists for a command. -/
def resultCodes : Instr → List ResultCode
  | .append _ => [.ok]
  | .scan => [.noFrameYet, .frameOk, .checksumMismatch]
  | .peek _ => [.ok, .outOfRange]
  | .consume _ => [.ok, .outOfRange]
  | .readf _ => [.ok, .outOfRange]
  | .rdreg r => if r.toNat < 6 then [.ok] else [.illegalCmd]
  | .wrctrl _ => [.ok]

theorem readReg_of_lt_six {r : Arg} (s : State) (h : r.toNat < 6) : ∃ d, s.readReg r = some d := by
  unfold State.readReg
  generalize r.toNat = n at h
  interval_cases n <;> exact ⟨_, rfl⟩

/-- Every command has a next state, which holds its response with one of its codes (R66, R67, R184). -/
theorem exec_answers (i : Instr) (s : State) :
    ∃ t rc d, exec i s = .next t ∧ t.rsp = some (rspWord rc d) ∧ rc ∈ resultCodes i := by
  cases i with
  | append b => exact ⟨_, .ok, _, rfl, rfl, by simp [resultCodes]⟩
  | wrctrl v => exact ⟨_, .ok, _, rfl, rfl, by simp [resultCodes]⟩
  | scan =>
    rcases exec_scan_result (s := s) rfl with ⟨-, rc, hrc, h⟩ | ⟨F, -, -, h⟩
    · refine ⟨_, rc, _, rfl, h, ?_⟩
      simp only [List.mem_cons, List.not_mem_nil, or_false] at hrc
      rcases hrc with rfl | rfl <;> simp [resultCodes]
    · exact ⟨_, .frameOk, _, rfl, h, by simp [resultCodes]⟩
  | peek off =>
    simp only [exec, execPeek]
    split
    · exact ⟨_, .ok, _, rfl, rfl, by simp [resultCodes]⟩
    · exact ⟨_, .outOfRange, _, rfl, rfl, by simp [resultCodes]⟩
  | readf k =>
    simp only [exec, execReadf]
    split
    · exact ⟨_, .ok, _, rfl, rfl, by simp [resultCodes]⟩
    · exact ⟨_, .outOfRange, _, rfl, rfl, by simp [resultCodes]⟩
  | consume n =>
    by_cases hn : n.toNat ≤ s.window.length
    · exact ⟨_, .ok, _, exec_consume_of_le hn, rfl, by simp [resultCodes]⟩
    · exact ⟨_, .outOfRange, _, exec_consume_of_lt (Nat.lt_of_not_le hn), rfl, by simp [resultCodes]⟩
  | rdreg r =>
    by_cases hr : r.toNat < 6
    · obtain ⟨d, hd⟩ := readReg_of_lt_six s hr
      exact ⟨_, .ok, _, exec_rdreg_of_readReg hd, rfl, by simp [resultCodes, hr]⟩
    · exact ⟨_, .illegalCmd, _, exec_rdreg_of_six_le s (Nat.le_of_not_lt hr), rfl, by simp [resultCodes, hr]⟩

/-- Settles O49: an illegal word answers ILLEGAL_CMD, and a command's word answers one of `resultCodes`. -/
theorem resultCodesArePerCommand : Obligations.ResultCodesArePerCommand := by
  intro w s t h
  by_cases hw : IllegalEncoding w
  · rw [runWord_of_illegal s hw] at h
    cases h
    exact ⟨_, rfl, .inr (.inr (.inl ⟨rcField_rspWord _ _, .inl hw⟩))⟩
  · obtain ⟨i, rfl⟩ := exists_encode_of_legal hw
    obtain ⟨t', rc, d, ht, hrsp, hrc⟩ := exec_answers i s
    rw [runWord_of_decode s (decodeOfEncodeIsTheInstruction i), ht] at h
    cases h
    refine ⟨_, hrsp, ?_⟩
    rw [rcField_rspWord, encode, opField_wordOf, argField_wordOf]
    cases i with
    | rdreg r =>
      by_cases hr : r.toNat < 6
      · obtain rfl : rc = .ok := by simpa [resultCodes, hr] using hrc
        exact .inl ⟨rfl, by simp [Instr.opcode]⟩
      · obtain rfl : rc = .illegalCmd := by simpa [resultCodes, hr] using hrc
        exact .inr (.inr (.inl ⟨rfl, .inr ⟨rfl, Nat.le_of_not_lt hr⟩⟩))
    | _ =>
      simp only [resultCodes, List.mem_cons, List.not_mem_nil, or_false] at hrc
      rcases hrc with rfl | rfl | rfl <;> simp [rcCode, Instr.opcode]

/-- Settles O36: a SCAN that ends with a frame held has answered FRAME_OK with that frame's FRAME_INFO, and that is register 4. -/
theorem frameOkDataIsFrameInfo : Obligations.FrameOkDataIsFrameInfo := by
  intro s t h hvalid
  refine ⟨?_, exec_rdreg_of_readReg rfl⟩
  rcases exec_scan_result h with ⟨hf, -⟩ | ⟨F, hf, -, hrsp⟩
  · simp [State.frameValid, hf] at hvalid
  · have hinfo : t.frameInfo = frameInfoOf F := by rw [State.frameInfo, hf]
    rw [hrsp, hinfo]

/-- Settles O28: OCC fits in 16 bits by the invariant, so CONSUME discards the whole window. -/
theorem flushEmptiesTheWindow : Obligations.FlushEmptiesTheWindow := by
  rintro s ⟨-, hwf, -⟩
  have hlt : s.window.length < 65536 := lt_of_le_of_lt hwf s.params.cap.isLt
  have hcount : ((BitVec.ofNat 28 s.window.length).extractLsb' 0 16).toNat = s.window.length := by
    rw [BitVec.extractLsb'_toNat, BitVec.toNat_ofNat, Nat.shiftRight_zero]
    omega
  have hread : exec flushFirst s = .next (s.respond .ok (BitVec.ofNat 28 s.window.length)) := exec_rdreg_of_readReg rfl
  refine ⟨_, _, hread, rfl, ?_⟩
  rw [flushSecond, dataField_rspWord,
    exec_consume_of_le (s := s.respond .ok (BitVec.ofNat 28 s.window.length)) hcount.le, hcount]
  simp [State.winDrop, State.respond, rspWord_ok_zero]

/-! ### The command port (R61) -/

theorem cmdReady_iff (s : State) : s.cmdReady = true ↔ s.rst = false ∧ s.inFlight = none := by
  simp [State.cmdReady]

/-- A ready SPF accepts the word offered and runs it (R61). -/
theorem step_accepts {s : State} {w : Word} {rest : List Word} (hr : s.cmdReady = true) (hc : s.cmdIn = w :: rest) :
    step s = runWord w (s.accept w rest) := by
  obtain ⟨hrst, hf⟩ := (cmdReady_iff s).1 hr
  simp [step, hrst, hf, hc]

/-- With a command in flight an edge moves nothing but its response (R61). -/
theorem step_of_inFlight {s : State} (hrst : s.rst = false) (hf : s.inFlight.isSome = true) :
    step s = .next s.awaitDelivery := by
  obtain ⟨w, hw⟩ := Option.isSome_iff_exists.1 hf
  simp [step, hrst, hw]

/-- A controller that is ready takes the response pending (R61). -/
theorem step_delivers {s : State} {r : Word} (hrst : s.rst = false) (hf : s.inFlight.isSome = true)
    (hrsp : s.rsp = some r) (hq : s.rspReady = true) : step s = .next (s.deliver r) := by
  rw [step_of_inFlight hrst hf]
  simp [State.awaitDelivery, hrsp, hq]

@[simp] theorem State.extract_params (start len : Nat) (s : State) : (s.extract start len).params = s.params := by
  rcases extract_cases start len s with ⟨-, h⟩ | ⟨-, h⟩ <;> simp [h]

/-- SCAN reads the parameters and never writes them (R20). -/
theorem scanLoop_params (fuel : Nat) (s : State) (h : s.window.length < fuel) :
    (scanLoop fuel s).params = s.params := by
  obtain ⟨k, d, u, -, -, hu, hend⟩ := scanLoop_cases fuel s h
  have hparams : u.params = s.params := by rw [hu]
  rcases hend with ⟨-, ht⟩ | ⟨-, ht⟩ | ⟨start, len, -, ht⟩ <;> simp [ht, hparams]

/-- No command writes a parameter (R20, R164). -/
theorem exec_params {i : Instr} {s t : State} (h : exec i s = .next t) : t.params = s.params := by
  rcases exec_cases h with ⟨rc, d, rfl⟩ | ⟨b, -, rfl⟩ | ⟨n, -, -, rfl⟩ | ⟨v, -, rfl⟩ | ⟨-, rfl⟩
  case inr.inr.inr.inr => exact scanLoop_params _ s.clearFrame (Nat.lt_succ_self _)
  all_goals rfl

theorem runWord_params {w : Word} {s t : State} (h : runWord w s = .next t) : t.params = s.params := by
  rcases runWord_cases w s with ⟨i, -, hr⟩ | ⟨e, -, hr⟩ <;> rw [hr] at h
  · exact exec_params h
  · cases h
    rfl

/-- Running a word writes nothing at the ports (R61). -/
theorem runWord_keeps_ports {w : Word} {s t : State} (h : runWord w s = .next t) : t.withPortsOf s = t := by
  have hself : runWord w s = .next (t.withPortsOf s) := runWord_withPortsOf s h
  rw [h, Host.Outcome.next.injEq] at hself
  exact hself.symm

/-- Every word, legal or not, has a next state, which holds its one response (R66, R184). -/
theorem runWord_answers (w : Word) (s : State) : ∃ t r, runWord w s = .next t ∧ t.rsp = some r := by
  rcases runWord_cases w s with ⟨i, -, hr⟩ | ⟨e, -, hr⟩
  · obtain ⟨t, rc, d, ht, hrsp, -⟩ := exec_answers i s
    exact ⟨t, _, hr.trans ht, hrsp⟩
  · exact ⟨_, _, hr, rfl⟩

/-- What acceptance leads to: the word has left the command port and is in flight, its one response is pending, and the rest of the
ports and the parameters stand still (R23, R61, R66). -/
theorem runWord_accept (w : Word) (rest : List Word) (s : State) :
    ∃ t r, runWord w (s.accept w rest) = .next t ∧ t.rsp = some r ∧ t.inFlight = some w ∧ t.cmdIn = rest ∧
      t.seqIndex = s.seqIndex + 1 ∧ t.rspOut = s.rspOut ∧ t.rst = s.rst ∧ t.rspReady = s.rspReady ∧
      t.params = s.params := by
  obtain ⟨t, r, ht, hrsp⟩ := runWord_answers w (s.accept w rest)
  have hparams : t.params = s.params := (runWord_params ht).trans (State.accept_params w rest s)
  rw [← runWord_keeps_ports ht] at ht
  exact ⟨_, r, ht, hrsp, rfl, rfl, rfl, rfl, rfl, rfl, hparams⟩

/-- Settles O4: the seven words are fixed, so the decoder is evaluated on them. -/
theorem writtenOutWordsDecode : Obligations.WrittenOutWordsDecode :=
  ⟨by decide, by decide, by decide, by decide, by decide, by decide, by decide⟩

/-- Settles O9, by `step_accepts`. -/
theorem stepRunsTheDecodedInstruction : Obligations.StepRunsTheDecodedInstruction :=
  fun _ _ _ _ hr hc hd => (step_accepts hr hc).trans (runWord_of_decode _ hd)

/-- Settles O11: a stalled edge is one of `awaitDelivery_cases` that delivers nothing, and an idle SPF takes the branch of the step that
holds. -/
theorem stalledOrIdleSpfHoldsItsState : Obligations.StalledOrIdleSpfHoldsItsState := by
  refine ⟨fun s hrst hf hq => ?_, fun s hrst hf hc => ?_⟩
  · rcases awaitDelivery_cases s with ⟨r, -, hready, -⟩ | ⟨-, hwait⟩
    · simp [hq] at hready
    · rw [step_of_inFlight hrst hf, hwait]
  · simp [step, hrst, hf, hc]

/-- Settles O10: acceptance is `runWord_accept`, and the edge with `rsp_ready` high is `edgeWith_delivers`. -/
theorem everyAcceptedWordGetsOneResponse : Obligations.EveryAcceptedWordGetsOneResponse := by
  intro s w rest hr hc
  obtain ⟨hrst, -⟩ := (cmdReady_iff s).1 hr
  obtain ⟨t, r, ht, hrsp, hf, hcmdIn, hseq, hout, htrst, hq, hparams⟩ := runWord_accept w rest s
  have hdeliver := edgeWith_delivers (htrst.trans hrst) (by rw [hf]; rfl) hrsp
  refine ⟨t, r, (step_accepts hr hc).trans ht, hrsp, ?_, ?_, hf, hcmdIn, hseq, hout, htrst, hq, hparams, ?_, ?_⟩
  · simp [State.rspValid, htrst, hrst, hrsp]
  · simp [State.cmdReady, hf]
  · rw [← hout]
    exact hdeliver
  · simp [State.cmdReady, htrst, hrst]

/-- Settles O57, by the cases of `step_cases`: a reset edge empties both sides of the count, a delivery moves one command from in flight
to answered, and acceptance counts one command and puts it in flight with its response. -/
theorem stepKeepsThePortInvariant : Obligations.StepKeepsThePortInvariant := by
  rintro s t ⟨hpending, hcount⟩ ht
  rcases step_cases s with ⟨hrst, hs⟩ | ⟨-, hf, hs⟩ | ⟨-, -, -, hs⟩ | ⟨w, rest, -, hf, -, hs⟩ <;> rw [hs] at ht
  · cases ht
    exact ⟨⟨rfl, rfl⟩, fun hlow => by simp [hrst] at hlow⟩
  · cases ht
    rcases awaitDelivery_cases s with ⟨r, -, -, ha⟩ | ⟨-, ha⟩ <;> rw [ha]
    · obtain ⟨w, hw⟩ := Option.isSome_iff_exists.1 hf
      exact ⟨⟨rfl, by simp [hcount, hw]⟩, fun _ => ⟨[r], rfl⟩⟩
    · exact ⟨⟨hpending, hcount⟩, fun _ => ⟨[], List.append_nil _⟩⟩
  · cases ht
    exact ⟨⟨hpending, hcount⟩, fun _ => ⟨[], List.append_nil _⟩⟩
  · obtain ⟨u, r, hu, hrsp, huf, -, hseq, hout, -⟩ := runWord_accept w rest s
    rw [hu] at ht
    cases ht
    refine ⟨⟨by rw [hrsp, huf]; rfl, ?_⟩, fun _ => by rw [hout]⟩
    simp [hseq, hout, huf, hcount, hf]

/-! ### Streams of words and stalls -/

theorem run_of_step {s t : State} (k : Nat) (h : step s = .next t) :
    Host.Core.run Sys2Proof.core (k + 1) s = Host.Core.run Sys2Proof.core k t := by
  have hcore : Sys2Proof.core.step s = .next t := h
  simp only [Host.Core.run]
  rw [hcore]

/-- Settles O15, by induction on the words: one edge accepts a word and the next delivers its response, which leaves the SPF ready for
the others. -/
theorem commandStreamIsAnsweredWordForWord : Obligations.CommandStreamIsAnsweredWordForWord := by
  intro ws
  induction ws with
  | nil => exact fun s hr hrsp _ hc => ⟨s, [], rfl, rfl, (List.append_nil _).symm, hc, rfl, hr, hrsp, rfl⟩
  | cons w ws ih =>
    intro s hr _ hq hc
    obtain ⟨hrst, -⟩ := (cmdReady_iff s).1 hr
    obtain ⟨t, r, ht, hrsp, hf, hcmdIn, hseq, hout, htrst, htq, hparams⟩ := runWord_accept w ws s
    have hdeliver : step t = .next (t.deliver r) :=
      step_delivers (htrst.trans hrst) (by rw [hf]; rfl) hrsp (htq.trans hq)
    have hready : (t.deliver r).cmdReady = true := (cmdReady_iff _).2 ⟨htrst.trans hrst, rfl⟩
    obtain ⟨u, rs, hrun, hlen, huout, hucmdIn, huseq, huready, hursp, huparams⟩ :=
      ih (t.deliver r) hready rfl (htq.trans hq) hcmdIn
    have hrun2 : Host.Core.run Sys2Proof.core (2 * (w :: ws).length) s = .next u :=
      ((run_of_step _ ((step_accepts hr hc).trans ht)).trans (run_of_step _ hdeliver)).trans hrun
    refine ⟨u, r :: rs, hrun2, by simp [hlen], ?_, hucmdIn, ?_, huready, hursp, huparams.trans hparams⟩
    · simp [huout, hout]
    · simp only [huseq, State.deliver_seqIndex, hseq, List.length_cons]
      omega

/-- Settles O59: a stall leaves the first state but for `rsp_ready` (`runEdges_stalled`), and `edgeWith_delivers` is the edge that ends
it. -/
theorem pendingResponseSurvivesAnyStall : Obligations.PendingResponseSurvivesAnyStall := by
  intro ready s r n hrst hf hrsp hn hlow
  refine ⟨fun k hk => ?_, ?_⟩
  · obtain ⟨q, hq⟩ := runEdges_stalled hrst hf fun j hj => hlow j (hj.trans_le hk)
    refine ⟨_, hq, ?_, hrsp, ?_, rfl⟩
    · simp [State.rspValid, hrst, hrsp]
    · simp [State.cmdReady, hf]
  · obtain ⟨q, hq⟩ := runEdges_stalled hrst hf hlow
    rw [runEdges, hq, hn]
    exact edgeWith_delivers (s := s.driveRspReady q) hrst hf hrsp

end Sys2Proof.Machine
end

section
/-! PROOFS. The family 40_ring_buffer.md: APPEND, PEEK and CONSUME on the decoded command and on the whole word (R100..R102), the byte just
appended read back, and the multi-byte peek (R103). -/

namespace Sys2Proof.Machine

/-! ### PEEK on the decoded command -/

/-- An OK response with a byte: the byte stands in the 8 low bits, under zeros (R66, R68). -/
theorem rspWord_ok_byteData (b : Byte) : rspWord .ok (byteData b) = 0#24 ++ b := by
  apply BitVec.eq_of_toNat_eq
  have hdata : (byteData b).toNat = b.toNat := BitVec.toNat_setWidth_of_le (by decide)
  have hword : (0#24 ++ b : Word).toNat = b.toNat := (BitVec.toNat_append 0#24 b).trans (by simp)
  rw [rspWord_ok_toNat, hdata, hword]

/-- PEEK of an offset that exists answers OK with its byte and changes nothing else (R101). -/
theorem exec_peek_of_windowByte {off : Arg} {s : State} {b : Byte} (h : s.windowByte off.toNat = some b) :
    exec (.peek off) s = .next (s.respond .ok (byteData b)) := by
  simp [exec, execPeek, h]

theorem windowByte_of_lt {off : Nat} {s : State} (h : off < s.window.length) : s.windowByte off = some s.window[off] :=
  List.getElem?_eq_getElem h

theorem respond_ok_byteData (b : Byte) (s : State) :
    s.respond .ok (byteData b) = { s with rsp := some (0#24 ++ b) } := by
  rw [State.respond, rspWord_ok_byteData]

/-- Settles O18: an offset inside the window has a byte, and the others are `exec_peek_of_le`. -/
theorem peekReadsOneWindowByte : Obligations.PeekReadsOneWindowByte := by
  refine ⟨fun off s h => ?_, fun off s h => ?_⟩
  · rw [exec_peek_of_windowByte (windowByte_of_lt h), respond_ok_byteData]
  · rw [exec_peek_of_le h, raiseError_outOfRange]

/-- Settles O27: `off + len - 1` fits in ARG, so the last PEEK is one offset inside the window or past it. -/
theorem peekNFailsExactlyPastOccupancy : Obligations.PeekNFailsExactlyPastOccupancy := by
  intro off len s t hlen hfit h
  have hlast : (BitVec.ofNat 16 (off + len - 1)).toNat = off + len - 1 := by
    rw [BitVec.toNat_ofNat]
    exact Nat.mod_eq_of_lt (by omega)
  by_cases hin : off + len - 1 < s.window.length
  · rw [exec_peek_of_windowByte (windowByte_of_lt (hlast.trans_lt hin))] at h
    cases h
    have hok : ¬ s.window.length < off + len := by omega
    simp [hok, rcCode]
  · rw [exec_peek_of_le (by omega)] at h
    cases h
    have hpast : s.window.length < off + len := by omega
    simp [hpast, rcCode]

/-- Settles O25: APPEND leaves the byte at the end of a window of at most `CAP` bytes, so its offset fits in ARG and PEEK finds it. -/
theorem appendedByteIsPeekedBack : Obligations.AppendedByteIsPeekedBack := by
  intro b s hinv
  have happ := exec_append b s
  obtain ⟨-, hwf, -⟩ := exec_keeps_stateInv hinv happ
  obtain ⟨V, -, hW⟩ := exec_window_slides happ
  rw [addedByte] at hW
  generalize (s.winAppend b).respond .ok 0#28 = t at *
  have hsize : t.window.length = V.length + 1 := by rw [hW, List.length_append, List.length_singleton]
  have hcap : t.window.length < 65536 := lt_of_le_of_lt hwf t.params.cap.isLt
  have hoff : (BitVec.ofNat 16 (t.window.length - 1)).toNat = V.length := by
    rw [BitVec.toNat_ofNat]
    omega
  have hbyte : t.windowByte (BitVec.ofNat 16 (t.window.length - 1)).toNat = some b := by
    rw [hoff, State.windowByte, hW, List.getElem?_concat_length]
  exact ⟨t, happ, by omega, by rw [exec_peek_of_windowByte hbyte, respond_ok_byteData]⟩

/-! ### CONSUME on the decoded command -/

/-- Settles O20: the two answers of CONSUME, with their response words written out. -/
theorem consumeDiscardsFromTheFront : Obligations.ConsumeDiscardsFromTheFront := by
  refine ⟨fun n s h => ?_, fun n s h => ?_⟩
  · rw [exec_consume_of_le h, State.respond, rspWord_ok_zero]
    rfl
  · rw [exec_consume_of_lt h, raiseError_outOfRange]

/-! ### The whole word -/

/-- A word with a command's OP and ARG is answered by its RSV: ILLEGAL_CMD unless it is 0, and then the command runs (R64). -/
theorem runWord_of_op_arg {w : Word} {i : Instr} (s : State) (hop : opField w = i.opcode) (harg : argField w = i.arg) :
    runWord w s = if rsvField w ≠ 0#12 then .next (s.raiseError .illegalCmd) else exec i s := by
  split
  next hrsv => exact runWord_of_illegal s (.inr (.inr (.inl hrsv)))
  next hrsv =>
    have hword : w = encode i := (eq_wordOf_iff w i.opcode i.arg).2 ⟨hop, not_not.1 hrsv, harg⟩
    exact runWord_of_decode s ((decode_eq_ok_iff w i).2 hword)

/-- Settles O17: nonzero reserved ARG bits make the word illegal, and with none of them ARG is the byte, so RSV alone decides. -/
theorem appendWordFollowsItsPseudocode : Obligations.AppendWordFollowsItsPseudocode := by
  intro w s hop
  rw [← raiseError_illegalCmd]
  by_cases hres : w.extractLsb' 8 8 = 0#8
  · have harg : argField w = (Instr.append (w.extractLsb' 0 8)).arg := by
      rw [← extractLsb'_argField w (by decide), arg_eq_byte_iff, extractLsb'_argField w (by decide)] at hres
      exact hres
    rw [runWord_of_op_arg s hop harg, appendAddsNewestAndEvictsOldest]
    simp only [hres, ne_eq, not_true_eq_false, or_false]
    split <;> rfl
  · rw [if_pos (.inr hres)]
    exact runWord_of_illegal s (.inr (.inr (.inr (.inl ⟨hop, hres⟩))))

/-- Settles O19: past RSV the word is PEEK of its ARG, and MemRead of one byte is the window byte (`memRead_one`). -/
theorem peekWordFollowsItsPseudocode : Obligations.PeekWordFollowsItsPseudocode := by
  intro w s hop
  rw [runWord_of_op_arg (i := .peek (argField w)) s hop rfl, ← raiseError_illegalCmd]
  obtain ⟨hinside, houtside⟩ := peekReadsOneWindowByte
  split
  next => rfl
  next =>
    by_cases hoff : (argField w).toNat < s.window.length
    · rw [if_neg (by omega), hinside _ s hoff, memRead_one, List.getElem?_eq_getElem hoff]
      rfl
    · rw [if_pos (by omega), houtside _ s (Nat.le_of_not_lt hoff)]

/-- Settles O21: past RSV the word is CONSUME of its ARG. -/
theorem consumeWordFollowsItsPseudocode : Obligations.ConsumeWordFollowsItsPseudocode := by
  intro w s hop
  rw [runWord_of_op_arg (i := .consume (argField w)) s hop rfl, ← raiseError_illegalCmd]
  obtain ⟨hdrop, hkeep⟩ := consumeDiscardsFromTheFront
  split
  next => rfl
  next =>
    by_cases hn : (argField w).toNat ≤ s.window.length
    · rw [if_neg (Nat.not_lt_of_le hn), hdrop _ s hn]
    · rw [if_pos (Nat.lt_of_not_le hn), hkeep _ s (Nat.lt_of_not_le hn)]

end Sys2Proof.Machine
end

section
/-! PROOFS. The family 41_frame_scanner.md: what a pass and a whole SCAN do with a window given by its first marker (R122..R130), the
bound on resynchronisation (R132), a repeated SCAN, and framing determinism (R136). -/

namespace Sys2Proof.Machine

/-! ### One pass, from the shape of the window -/

/-- A pass finds no marker exactly when there is none (R123). -/
theorem scanPass_eq_noMarker_iff (p : Params) (W : Window) : scanPass p W = .noMarker ↔ p.stx ∉ W := by
  constructor
  · intro h
    rcases scanPass_cases p W with ⟨-, hW⟩ | ⟨hp | hp, -⟩ | ⟨start, hp | hp, -⟩ | ⟨start, len, lenByte, hp, -⟩
    · exact hW
    all_goals rw [hp] at h; cases h
  · intro h
    rw [scanPass, (firstIndex_eq_none_iff p.stx W).2 h]

/-- A pass over a window with first marker `pre.length`: LENGTH is the third byte after the marker, and the end byte stands behind
PAYLOAD and CHECKSUM (R122..R128). -/
theorem scanPass_of_marker {p : Params} {pre : List Byte} (post : List Byte) (hpre : p.stx ∉ pre) :
    scanPass p (pre ++ p.stx :: post) =
      (post[2]?).elim .headerWait fun len =>
        if pre.length + len.toNat + 6 > p.capacity then .implausible pre.length
        else (post[len.toNat + 4]?).elim .bodyWait fun e =>
          if e = p.etx then .candidate pre.length len.toNat else .badEnd pre.length := by
  have hbehind (i : Nat) : (pre ++ p.stx :: post)[pre.length + i + 1]? = post[i]? := by
    rw [Nat.add_assoc, List.getElem?_append_right (Nat.le_add_right _ _), Nat.add_sub_cancel_left,
      List.getElem?_cons_succ]
  rw [scanPass, firstIndex_append_cons p.stx pre post hpre]
  dsimp only
  rw [hbehind 2]
  cases post[2]? with
  | none => rfl
  | some len =>
    have hend : (pre ++ p.stx :: post)[pre.length + len.toNat + 5]? = post[len.toNat + 4]? := hbehind (len.toNat + 4)
    dsimp only [Option.elim_some]
    rw [hend]
    cases post[len.toNat + 4]? <;> rfl

/-- The bytes that a spurious marker costs are there (R127). -/
theorem lt_length_of_spurious {p : Params} {W : Window} {start : Nat}
    (h : scanPass p W = .implausible start ∨ scanPass p W = .badEnd start) : start < W.length := by
  rcases scanPass_cases p W with ⟨hp, -⟩ | ⟨hp | hp, -⟩ | ⟨start', hp | hp, hlt⟩ | ⟨start', len, lenByte, hp, -⟩ <;>
    rw [hp] at h <;> rcases h with h | h <;> cases h <;> exact hlt

/-- A candidate frame lies wholly inside the window (R126). -/
theorem candidate_le_length {p : Params} {W : Window} {start len : Nat} (h : scanPass p W = .candidate start len) :
    start + len + 6 ≤ W.length := by
  rcases scanPass_cases p W with ⟨hp, -⟩ | ⟨hp | hp, -⟩ | ⟨start', hp | hp, -⟩ | ⟨start', len', lenByte, hp, -, hin, -⟩ <;>
    rw [hp] at h <;> cases h
  exact hin

/-! ### The command, from what its first pass finds -/

theorem respond_noFrameYet (s : State) : s.respond .noFrameYet 0#28 = { s with rsp := some 0x30000000#32 } := rfl

theorem State.clearFrame_of_none {s : State} (h : s.frame = none) : s.clearFrame = s := by
  rw [State.clearFrame, ← h]

theorem exec_scan (s : State) : exec .scan s = .next (scanLoop (s.window.length + 1) s.clearFrame) := rfl

theorem exec_scan_of_noMarker {s : State} (h : scanPass s.params s.window = .noMarker) :
    exec .scan s =
      .next ((s.clearFrame.winDrop (noMarkerDrop s.retainLast s.window.length)).respond .noFrameYet 0#28) := by
  simp [exec_scan, scanLoop, h]

theorem exec_scan_of_wait {s : State}
    (h : scanPass s.params s.window = .headerWait ∨ scanPass s.params s.window = .bodyWait) :
    exec .scan s = .next (s.clearFrame.respond .noFrameYet 0#28) := by
  rcases h with h | h <;> simp [exec_scan, scanLoop, h]

/-- After a resynchronisation SCAN is a SCAN of the shortened window: the passes that are left suffice (R127, R132). -/
theorem exec_scan_of_spurious {s : State} {start : Nat}
    (h : scanPass s.params s.window = .implausible start ∨ scanPass s.params s.window = .badEnd start) :
    exec .scan s = exec .scan (s.resync start) := by
  have hshorter : (s.resync start).clearFrame.window.length < s.window.length := by
    have := lt_length_of_spurious h
    simp only [State.clearFrame_window, State.resync_window, List.length_drop]
    omega
  have hcomm : s.clearFrame.resync start = (s.resync start).clearFrame := rfl
  rw [exec_scan, scanLoop_spurious s.window.length start s.clearFrame h, hcomm, scanLoop_fuel _ _ hshorter]
  rfl

theorem exec_scan_of_candidate {s : State} {start len : Nat}
    (h : scanPass s.params s.window = .candidate start len) :
    exec .scan s = .next (s.clearFrame.extract start len) := by
  simp [exec_scan, scanLoop, h]

/-! ### No marker, and the waits (R123, R124, R126) -/

/-- Settles O29, by `drop_noMarkerDrop`. -/
theorem scanWithoutMarkerDropsTheWindow : Obligations.ScanWithoutMarkerDropsTheWindow := by
  intro s h
  rw [exec_scan_of_noMarker ((scanPass_eq_noMarker_iff _ _).2 h), respond_noFrameYet, ← drop_noMarkerDrop]
  rfl

/-- Settles O30: LENGTH is the third byte after the marker, and is not there. -/
theorem scanWaitsForTheHeader : Obligations.ScanWaitsForTheHeader := by
  intro s pre post hW hpre hpost
  have hpass : scanPass s.params s.window = .headerWait := by
    rw [hW, scanPass_of_marker post hpre, List.getElem?_eq_none (Nat.le_of_lt_succ hpost), Option.elim]
  exact exec_scan_of_wait (.inl hpass)

/-- A pass over a window with the first marker's whole header (R125..R128). -/
theorem scanPass_of_header {p : Params} {pre : List Byte} (status packetType len : Byte) (body : List Byte)
    (hpre : p.stx ∉ pre) :
    scanPass p (pre ++ p.stx :: status :: packetType :: len :: body) =
      if pre.length + len.toNat + 6 > p.capacity then .implausible pre.length
      else (body[len.toNat + 1]?).elim .bodyWait fun e =>
        if e = p.etx then .candidate pre.length len.toNat else .badEnd pre.length :=
  scanPass_of_marker (status :: packetType :: len :: body) hpre

/-- Settles O31: the frame is plausible, and its end byte is not there. -/
theorem scanWaitsForTheBody : Obligations.ScanWaitsForTheBody := by
  intro s pre body status packetType len hW hpre hcap hbody
  have hpass : scanPass s.params s.window = .bodyWait := by
    rw [hW, scanPass_of_header status packetType len body hpre, if_neg (Nat.not_lt_of_le hcap),
      List.getElem?_eq_none (Nat.le_of_lt_succ hbody), Option.elim]
  exact exec_scan_of_wait (.inr hpass)

/-! ### Spurious markers (R127) -/

/-- Resynchronisation drops exactly the bytes up to and including the first marker. -/
theorem resync_of_marker {s : State} {pre post : List Byte} {stx : Byte} (hW : s.window = pre ++ stx :: post) :
    s.resync pre.length = { s with window := post, resyncCnt := s.resyncCnt + 1#16 } := by
  have hdrop : s.window.drop (pre.length + 1) = post := by
    rw [hW, ← List.drop_drop, List.drop_left, List.drop_one, List.tail_cons]
  rw [← hdrop]
  rfl

/-- Settles O32: either cause makes the first pass find a spurious marker. -/
theorem scanResynchronisesPastSpuriousMarkers : Obligations.ScanResynchronisesPastSpuriousMarkers := by
  refine ⟨fun s pre body status packetType len hW hpre hcap => ?_,
    fun s pre mid rest status packetType len e hW hpre hmid hcap he => ?_⟩
  · have hpass : scanPass s.params s.window = .implausible pre.length := by
      rw [hW, scanPass_of_header status packetType len body hpre, if_pos hcap]
    rw [exec_scan_of_spurious (.inl hpass), resync_of_marker hW]
  · have hend : (mid ++ e :: rest)[len.toNat + 1]? = some e := by
      simp [← hmid]
    have hpass : scanPass s.params s.window = .badEnd pre.length := by
      rw [hW, scanPass_of_header status packetType len _ hpre, if_neg (Nat.not_lt_of_le hcap), hend, Option.elim,
        if_neg he]
    rw [exec_scan_of_spurious (.inr hpass), resync_of_marker hW]

/-! ### A whole frame in the window (R126..R130) -/

/-- A whole frame for LENGTH `len`, as a pass checks it: the markers and the size, but not CHECKSUM. -/
structure FrameShape (p : Params) (F : List Byte) (len : Byte) : Prop where
  marker : F[0]? = some p.stx
  length : F[3]? = some len
  size : F.length = len.toNat + 6
  ending : F[len.toNat + 5]? = some p.etx

/-- The frame of R70's layout has the shape, whatever its CHECKSUM. -/
theorem frameShape_of_layout {p : Params} {status packetType len csum : Byte} {payload : List Byte}
    (h : payload.length = len.toNat) :
    FrameShape p ((p.stx :: status :: packetType :: len :: payload) ++ [csum, p.etx]) len where
  marker := rfl
  length := rfl
  size := by simp [h]
  ending := by simp [← h]

theorem FrameOk.frameShape {p : Params} {F : List Byte} (h : FrameOk p F) : ∃ len, FrameShape p F len := by
  obtain ⟨hlen, hstx, hetx, -, -⟩ := h
  obtain ⟨len, h3, hsize⟩ := Option.map_eq_some_iff.1 hlen
  refine ⟨len, hstx, h3, hsize.symm, ?_⟩
  rw [← hetx, List.getLast?_eq_getElem?, ← hsize]
  rfl

/-- A frame begins with its marker. -/
theorem FrameShape.eq_cons {p : Params} {F : List Byte} {len : Byte} (h : FrameShape p F len) :
    ∃ post, F = p.stx :: post := by
  cases F with
  | nil => exact absurd h.marker (by simp)
  | cons b post => exact ⟨post, by simpa using h.marker⟩

/-- The pass finds a whole frame that fits the capacity, whatever follows it. -/
theorem scanPass_of_frame {p : Params} {pre F : List Byte} {len : Byte} (rest : List Byte) (hF : FrameShape p F len)
    (hpre : p.stx ∉ pre) (hcap : pre.length + len.toNat + 6 ≤ p.capacity) :
    scanPass p (pre ++ F ++ rest) = .candidate pre.length len.toNat := by
  obtain ⟨post, rfl⟩ := hF.eq_cons
  obtain ⟨-, hlen, hsize, hetx⟩ := hF
  rw [List.length_cons] at hsize
  rw [List.getElem?_cons_succ] at hlen hetx
  rw [List.append_assoc, List.cons_append, scanPass_of_marker _ hpre,
    List.getElem?_append_left (by omega), hlen, Option.elim_some, if_neg (Nat.not_lt_of_le hcap),
    List.getElem?_append_left (by omega), hetx, Option.elim_some, if_pos rfl]

theorem candidateFrame_of_append {pre F : List Byte} {len : Nat} (rest : List Byte) (h : F.length = len + 6) :
    candidateFrame pre.length len (pre ++ F ++ rest) = F := by
  rw [candidateFrame, List.append_assoc, List.drop_left, ← h, List.take_left]

/-- SCAN of a window whose first marker begins a whole frame: the frame leaves the window, and is held exactly when it validates
(R128..R130). -/
theorem exec_scan_of_frame {s : State} {pre F rest : List Byte} {len : Byte} (hW : s.window = pre ++ F ++ rest)
    (hF : FrameShape s.params F len) (hpre : s.params.stx ∉ pre)
    (hcap : pre.length + len.toNat + 6 ≤ s.params.capacity) :
    exec .scan s = .next { s with
      window := rest
      frame := if validate F = true then some F else none
      rsp := some (if validate F = true then rspWord .frameOk (frameInfoOf F) else 0x50000000#32) } := by
  have hpass : scanPass s.params s.window = .candidate pre.length len.toNat := by
    rw [hW, scanPass_of_frame rest hF hpre hcap]
  have hcand : candidateFrame pre.length len.toNat s.clearFrame.window = F := by
    rw [State.clearFrame_window, hW, candidateFrame_of_append rest hF.size]
  have hrest : s.window.drop (pre.length + len.toNat + 6) = rest := by
    rw [hW, Nat.add_assoc, ← hF.size, ← List.length_append, List.drop_left]
  rw [exec_scan_of_candidate hpass, ← hrest]
  rcases extract_cases pre.length len.toNat s.clearFrame with ⟨hv, hext⟩ | ⟨hv, hext⟩ <;>
    rw [hcand] at hv
  · rw [hext, hcand, hv]
    rfl
  · rw [hext, hv]
    rfl

/-- A frame of R70's layout validates exactly when CHECKSUM is the sum of STATUS to the end of PAYLOAD (R151). -/
theorem validate_layout (stx status packetType len csum etx : Byte) (payload : List Byte)
    (h : payload.length = len.toNat) :
    validate ((stx :: status :: packetType :: len :: payload) ++ [csum, etx]) =
      decide (csum = sum8 (status :: packetType :: len :: payload)) := by
  have hspan : checksumSpan ((stx :: status :: packetType :: len :: payload) ++ [csum, etx]) len.toNat =
      status :: packetType :: len :: payload := by
    simp [checksumSpan, Nat.add_comm 3, ← h]
  have hcsum : ((stx :: status :: packetType :: len :: payload) ++ [csum, etx])[4 + len.toNat]? = some csum := by
    simp [Nat.add_comm 4, ← h]
  have hsize : ((stx :: status :: packetType :: len :: payload) ++ [csum, etx]).length = len.toNat + 6 := by
    simp [h]
  have hlen : ((stx :: status :: packetType :: len :: payload) ++ [csum, etx])[3]? = some len := rfl
  rw [validate, if_neg (by omega), hlen]
  simp only [hsize, ne_eq, not_true_eq_false, if_false, hcsum, hspan, Option.some.injEq]

/-- FRAME_INFO of a frame of R70's layout, as FRAME_OK answers it (R30, R66, R130). -/
theorem rspWord_frameOk_layout (stx status packetType len : Byte) (rest : List Byte) :
    rspWord .frameOk (frameInfoOf (stx :: status :: packetType :: len :: rest)) =
      0x4#4 ++ 0b0001#4 ++ status ++ packetType ++ len := by
  apply BitVec.eq_of_toNat_eq
  simp only [rspWord, frameInfoOf, rcCode, BitVec.toNat_append, Nat.shiftLeft_or_distrib, ← Nat.shiftLeft_add,
    Nat.or_assoc]

/-- Settles O33: the layout has the shape of `exec_scan_of_frame`, and `validate_layout` decides between the two answers. -/
theorem scanExtractsAndValidatesTheFrame : Obligations.ScanExtractsAndValidatesTheFrame := by
  refine ⟨fun s pre payload rest status packetType len hpre hlen hcap hW => ?_,
    fun s pre payload rest status packetType len csum hpre hlen hcap hcsum hW => ?_⟩
  · have hvalid := validate_layout s.params.stx status packetType len
      (sum8 (status :: packetType :: len :: payload)) s.params.etx payload hlen
    rw [exec_scan_of_frame hW (frameShape_of_layout hlen) hpre hcap, hvalid, decide_eq_true rfl,
      ← rspWord_frameOk_layout s.params.stx]
    rfl
  · have hvalid := validate_layout s.params.stx status packetType len csum s.params.etx payload hlen
    rw [exec_scan_of_frame hW (frameShape_of_layout hlen) hpre hcap, hvalid, decide_eq_false hcsum]
    rfl

/-! ### The bound on resynchronisation (R132), and the repeated SCAN -/

/-- What SCAN can do, from `scanLoop_cases`: with the last held frame cleared, `k` resynchronisations drop `d` bytes, and the pass
on the rest waits or extracts. -/
theorem exec_scan_cases {s t : State} (h : exec .scan s = .next t) :
    ∃ (k d : Nat) (u : State), k ≤ d ∧ d ≤ s.window.length ∧
      u = { s with frame := none, window := s.window.drop d, resyncCnt := s.resyncCnt + BitVec.ofNat 16 k } ∧
      ((scanPass u.params u.window = .noMarker ∧
          t = (u.winDrop (noMarkerDrop u.retainLast u.window.length)).respond .noFrameYet 0#28) ∨
       ((scanPass u.params u.window = .headerWait ∨ scanPass u.params u.window = .bodyWait) ∧
          t = u.respond .noFrameYet 0#28) ∨
       ∃ start len, scanPass u.params u.window = .candidate start len ∧ t = u.extract start len) := by
  cases h
  exact scanLoop_cases _ s.clearFrame (Nat.lt_succ_self _)

/-- SCAN changes the window, RESYNC_CNT, the frame and the response only: it drops `n` bytes from the front and counts at most one
resynchronisation for each (R120, R132). -/
theorem exec_scan_drops {s t : State} (h : exec .scan s = .next t) :
    ∃ k n : Nat, k ≤ n ∧ n ≤ s.window.length ∧
      t = { s with
        window := s.window.drop n
        resyncCnt := s.resyncCnt + BitVec.ofNat 16 k
        frame := t.frame
        rsp := t.rsp } := by
  obtain ⟨k, d, u, hk, hd, hu, hend⟩ := exec_scan_cases h
  have hlen : u.window.length = s.window.length - d := by rw [hu, List.length_drop]
  rcases hend with ⟨-, ht⟩ | ⟨-, ht⟩ | ⟨start, len, hp, ht⟩
  · have hdrop := noMarkerDrop_le u.retainLast u.window.length
    refine ⟨k, d + noMarkerDrop u.retainLast u.window.length, by omega, by omega, ?_⟩
    rw [ht, ← List.drop_drop, hu]
    rfl
  · refine ⟨k, d, hk, hd, ?_⟩
    rw [ht, hu]
    rfl
  · have hin := candidate_le_length hp
    refine ⟨k, d + (start + len + 6), by omega, by omega, ?_⟩
    rw [ht, ← List.drop_drop]
    rcases extract_cases start len u with ⟨-, he⟩ | ⟨-, he⟩ <;> rw [he, hu] <;> rfl

/-- Settles O34, from what SCAN drops (`exec_scan_drops`) and how it answers (`exec_scan_result`). -/
theorem scanAlwaysEndsWithinTheResyncBound : Obligations.ScanAlwaysEndsWithinTheResyncBound := by
  intro s
  obtain ⟨t, h⟩ : ∃ t, exec .scan s = .next t := ⟨_, exec_scan s⟩
  obtain ⟨k, n, hk, hn, ht⟩ := exec_scan_drops h
  have hwindow : t.window = s.window.drop n := congrArg State.window ht
  have hresync : t.resyncCnt = s.resyncCnt + BitVec.ofNat 16 k := congrArg State.resyncCnt ht
  refine ⟨t, k, n, h, hn, hwindow, hk, hresync, ?_, ?_⟩
  · rcases exec_scan_result h with ⟨hframe, rc, hrc, hrsp⟩ | ⟨F, hframe, hvalid, hrsp⟩
    · refine .inl ⟨hframe, ?_⟩
      simp only [List.mem_cons, List.not_mem_nil, or_false] at hrc
      rcases hrc with rfl | rfl
      · exact .inl hrsp
      · exact .inr hrsp
    · exact .inr ⟨F, hframe, hrsp, hvalid⟩
  · rw [hwindow, hresync]
    exact ht

/-- The response word 0x30000000 is an answer NO_FRAME_YET. -/
theorem eq_noFrameYet_of_rspWord {rc : ResultCode} {d : Data} (h : some (rspWord rc d) = some 0x30000000#32) :
    rc = .noFrameYet := by
  have hcode : rcCode rc = 0x3#4 := (rcField_rspWord rc d).symm.trans (congrArg rcField (Option.some.inj h))
  cases rc with
  | noFrameYet => rfl
  | _ => exact absurd hcode (by decide)

/-- What the no-marker policy has kept, it keeps again (R123). -/
theorem noMarkerDrop_of_kept (retain : Bool) (n : Nat) : noMarkerDrop retain (n - noMarkerDrop retain n) = 0 := by
  unfold noMarkerDrop
  cases retain with
  | false => simp
  | true => by_cases hn : 1 ≤ n <;> simp [hn, Nat.sub_sub_self]

/-- Settles O35: the pass that ended with NO_FRAME_YET ends the repeated SCAN too; without a marker the policy has nothing more to
drop. -/
theorem scanAfterNoFrameYetChangesNothing : Obligations.ScanAfterNoFrameYetChangesNothing := by
  intro s t h hrsp
  obtain ⟨k, d, u, -, -, hu, hend⟩ := exec_scan_cases h
  have hframe : u.frame = none := by rw [hu]
  rcases hend with ⟨hp, ht⟩ | ⟨hp, ht⟩ | ⟨start, len, -, ht⟩
  · have htframe : t.frame = none := by rw [ht]; exact hframe
    have hmarker : t.params.stx ∉ t.window := by
      rw [ht]
      exact fun hmem => (scanPass_eq_noMarker_iff _ _).1 hp (List.mem_of_mem_drop hmem)
    have hkept : noMarkerDrop t.retainLast t.window.length = 0 := by
      rw [ht, State.respond_window, State.winDrop_window, List.length_drop]
      exact noMarkerDrop_of_kept u.retainLast u.window.length
    rw [exec_scan_of_noMarker ((scanPass_eq_noMarker_iff _ _).2 hmarker), hkept, State.clearFrame_of_none htframe, ht]
    rfl
  · have htframe : t.frame = none := by rw [ht]; exact hframe
    have htpass : scanPass t.params t.window = .headerWait ∨ scanPass t.params t.window = .bodyWait := by rw [ht]; exact hp
    rw [exec_scan_of_wait htpass, State.clearFrame_of_none htframe, ht]
    rfl
  · rcases extract_cases start len u with ⟨-, he⟩ | ⟨-, he⟩ <;> rw [ht, he] at hrsp <;>
      cases eq_noFrameYet_of_rspWord hrsp

/-! ### Framing determinism (R136) -/

/-- A pass over the first bytes of a frame that fits the capacity, but not all of them, waits for the rest of it (R124, R126). -/
theorem scanPass_of_partialFrame {p : Params} {pre F G : List Byte} {len : Byte} (hF : FrameShape p F len)
    (hpre : p.stx ∉ pre) (hcap : pre.length + len.toNat + 6 ≤ p.capacity) (hG : G <+: F) (hshort : G.length < F.length)
    (hne : G ≠ []) :
    scanPass p (pre ++ G) = .headerWait ∨ scanPass p (pre ++ G) = .bodyWait := by
  obtain ⟨post, rfl⟩ := hF.eq_cons
  obtain ⟨-, hlen, hsize, -⟩ := hF
  obtain ⟨b, part, rfl⟩ := List.exists_cons_of_ne_nil hne
  obtain ⟨rfl, hpart⟩ := List.cons_prefix_cons.1 hG
  simp only [List.length_cons, List.getElem?_cons_succ] at hlen hsize hshort
  rw [scanPass_of_marker part hpre]
  by_cases hheader : 2 < part.length
  · have hpartLen : part[2]? = some len := by
      obtain ⟨rest, rfl⟩ := hpart
      rwa [List.getElem?_append_left hheader] at hlen
    have hend : part[len.toNat + 4]? = none := List.getElem?_eq_none (by omega)
    right
    rw [hpartLen, Option.elim_some, if_neg (Nat.not_lt_of_le hcap), hend, Option.elim_none]
  · left
    rw [List.getElem?_eq_none (Nat.le_of_not_lt hheader), Option.elim_none]

/-- Where the stream stands after the bytes `A` of it, from the state `s`, while no frame is held: the window is `A` from the frame's
marker on, behind bytes without a marker, and nothing was evicted or resynchronised. -/
structure Streaming (s : State) (pre A : List Byte) (t : State) : Prop where
  params : t.params = s.params
  resync : t.resyncCnt = s.resyncCnt
  noFrame : t.frame = none
  room : t.window.length ≤ s.window.length + A.length
  window : ∃ V, s.params.stx ∉ V ∧ t.window = V ++ A.drop pre.length

theorem streaming_nil {s : State} (pre : List Byte) (hframe : s.frame = none) (hstx : s.params.stx ∉ s.window) :
    Streaming s pre [] s where
  params := rfl
  resync := rfl
  noFrame := hframe
  room := le_rfl
  window := ⟨s.window, hstx, by simp⟩

/-- A byte of the stream: it joins the bytes without a marker, or the part of the frame. -/
theorem Streaming.append {s t : State} {pre F A : List Byte} {b : Byte} (h : Streaming s pre A t)
    (hpre : s.params.stx ∉ pre) (hstream : A ++ [b] <+: pre ++ F)
    (hroom : s.window.length + A.length < s.params.capacity) :
    Streaming s pre (A ++ [b]) ((t.winAppend b).respond .ok 0#28) := by
  obtain ⟨hparams, hresync, hframe, hlen, V, hV, hW⟩ := h
  have hpush : ((t.winAppend b).respond .ok 0#28).window = t.window ++ [b] := by
    rw [State.respond_window, State.winAppend_window, hparams, windowPush_of_lt _ _ _ (lt_of_le_of_lt hlen hroom)]
  refine ⟨hparams, hresync, hframe, ?_, ?_⟩
  · rw [hpush, List.length_append, List.length_append, List.length_singleton]
    omega
  · rw [hpush, hW]
    by_cases hphase : A.length < pre.length
    · have hb : A ++ [b] <+: pre := List.prefix_of_prefix_length_le hstream (List.prefix_append _ _) (by simpa using hphase)
      have hmem : b ∈ pre := hb.subset (by simp)
      refine ⟨V ++ [b], ?_, ?_⟩
      · simp only [List.mem_append, List.mem_singleton, not_or]
        exact ⟨hV, fun hbeq => hpre (hbeq ▸ hmem)⟩
      · rw [List.drop_eq_nil_of_le (by omega), List.drop_eq_nil_of_le (by simpa using hphase), List.append_nil,
          List.append_nil]
    · exact ⟨V, hV, by rw [List.drop_append_of_le_length (Nat.le_of_not_lt hphase), List.append_assoc]⟩

/-- The bytes of the stream behind `pre` are the first bytes of the frame. -/
theorem drop_isPrefix_frame {pre F A : List Byte} (h : A <+: pre ++ F) : A.drop pre.length <+: F := by
  simpa using h.drop pre.length

/-- A SCAN before the frame's last byte drops at most bytes without a marker. -/
theorem Streaming.scan {s t : State} {pre F A : List Byte} {len : Byte} (h : Streaming s pre A t)
    (hF : FrameShape s.params F len) (hstream : A <+: pre ++ F) (hshort : A.length < (pre ++ F).length)
    (hroom : s.window.length + (pre ++ F).length ≤ s.params.capacity) :
    ∃ t', exec .scan t = .next t' ∧ Streaming s pre A t' := by
  obtain ⟨hparams, hresync, hframe, hlen, V, hV, hW⟩ := h
  rw [List.length_append, hF.size] at hroom hshort
  by_cases hpart : A.drop pre.length = []
  · rw [hpart, List.append_nil] at hW
    have hpass : scanPass t.params t.window = .noMarker := by
      rw [scanPass_eq_noMarker_iff, hparams, hW]
      exact hV
    refine ⟨_, exec_scan_of_noMarker hpass, hparams, hresync, rfl, ?_, ?_⟩
    · simp only [State.respond_window, State.winDrop_window, State.clearFrame_window, List.length_drop]
      omega
    · refine ⟨t.window.drop (noMarkerDrop t.retainLast t.window.length), fun hmem => ?_, ?_⟩
      · rw [hW] at hmem
        exact hV (List.mem_of_mem_drop hmem)
      · rw [hpart, List.append_nil]
        rfl
  · have hpos := List.length_pos_iff.2 hpart
    have hVlen : V.length + (A.length - pre.length) ≤ s.window.length + A.length := by
      rw [hW, List.length_append, List.length_drop] at hlen
      exact hlen
    rw [List.length_drop] at hpos
    have hpass : scanPass t.params t.window = .headerWait ∨ scanPass t.params t.window = .bodyWait := by
      rw [hparams, hW]
      refine scanPass_of_partialFrame hF hV (by omega) (drop_isPrefix_frame hstream) ?_ hpart
      rw [List.length_drop, hF.size]
      omega
    exact ⟨_, exec_scan_of_wait hpass, hparams, hresync, rfl, hlen, V, hV, hW⟩

/-- APPENDs of the stream and SCANs between them, up to before the frame's last byte, by induction on the commands. -/
theorem Streaming.run {s t : State} {pre F A : List Byte} {len : Byte} {acts : List Instr} (h : Streaming s pre A t)
    (hF : FrameShape s.params F len) (hpre : s.params.stx ∉ pre)
    (hroom : s.window.length + (pre ++ F).length ≤ s.params.capacity)
    (hacts : ∀ i ∈ acts, i = .scan ∨ ∃ b, i = .append b) (hstream : A ++ appendedBytes acts <+: pre ++ F)
    (hshort : (A ++ appendedBytes acts).length < (pre ++ F).length) :
    ∃ t', execAll acts t = .next t' ∧ Streaming s pre (A ++ appendedBytes acts) t' := by
  induction acts generalizing A t with
  | nil => exact ⟨t, rfl, by simpa [appendedBytes] using h⟩
  | cons i acts ih =>
    have hrest : ∀ j ∈ acts, j = .scan ∨ ∃ b, j = .append b := fun j hj => hacts j (List.mem_cons_of_mem i hj)
    rcases hacts i List.mem_cons_self with rfl | ⟨b, rfl⟩
    · have hbytes : appendedBytes (.scan :: acts) = appendedBytes acts := rfl
      rw [hbytes] at hstream hshort ⊢
      have hA : A.length ≤ (A ++ appendedBytes acts).length := by simp
      obtain ⟨u, hu, hstreaming⟩ :=
        h.scan hF ((List.prefix_append A _).trans hstream) (lt_of_le_of_lt hA hshort) hroom
      rw [execAll, hu]
      exact ih hstreaming hrest hstream hshort
    · have hbytes : A ++ appendedBytes (.append b :: acts) = (A ++ [b]) ++ appendedBytes acts := by
        simp [appendedBytes, addedByte]
      rw [hbytes] at hstream hshort ⊢
      have hA : A.length + 1 ≤ (A ++ [b] ++ appendedBytes acts).length := by simp
      have hnext := h.append hpre ((List.prefix_append _ _).trans hstream) (by omega)
      rw [execAll, exec_append]
      exact ih hnext hrest hstream hshort

theorem execAll_append {is js : List Instr} {s t : State} (h : execAll is s = .next t) :
    execAll (is ++ js) s = execAll js t := by
  induction is generalizing s with
  | nil => cases h; rfl
  | cons i is ih =>
    rw [List.cons_append, execAll]
    rw [execAll] at h
    split at h
    next u hu => exact ih h
    next => cases h
    next => cases h

theorem appendedBytes_take_isPrefix (acts : List Instr) (k : Nat) : appendedBytes (acts.take k) <+: appendedBytes acts := by
  refine ⟨appendedBytes (acts.drop k), ?_⟩
  rw [appendedBytes, appendedBytes, appendedBytes, ← List.flatMap_append, List.take_append_drop]

/-- Settles O37: every command before the last byte keeps `Streaming`, and after the last byte the whole frame stands at the end of the
window, where `exec_scan_of_frame` finds it. -/
theorem framingFindsExactlyTheFrame : Obligations.FramingFindsExactlyTheFrame := by
  intro s pre F acts last hframe hstx hpre hok hroom hacts hbytes
  obtain ⟨len, hF⟩ := hok.frameShape
  obtain ⟨-, -, -, -, hvalid⟩ := hok
  have hroom' : s.window.length + (pre ++ F).length ≤ s.params.capacity := by
    rwa [List.length_append, ← Nat.add_assoc]
  have hbefore : appendedBytes acts <+: pre ++ F := ⟨[last], hbytes⟩
  have hshort : (appendedBytes acts).length < (pre ++ F).length := by
    rw [← hbytes, List.length_append]
    exact Nat.lt_succ_self _
  have hrun (as : List Instr) (has : as ⊆ acts) (hsub : appendedBytes as <+: appendedBytes acts) :
      ∃ t, execAll as s = .next t ∧ Streaming s pre (appendedBytes as) t :=
    (streaming_nil pre hframe hstx).run hF hpre hroom' (fun i hi => hacts i (has hi)) (hsub.trans hbefore)
      (lt_of_le_of_lt hsub.length_le hshort)
  constructor
  · intro k
    obtain ⟨t, ht, hstreaming⟩ := hrun (acts.take k) (List.take_subset k acts) (appendedBytes_take_isPrefix acts k)
    exact ⟨t, ht, hstreaming.noFrame, hstreaming.resync⟩
  · obtain ⟨t, ht, hstreaming⟩ := hrun acts (List.Subset.refl _) List.prefix_rfl
    have hlast := hstreaming.append hpre (F := F) (by rw [hbytes]) (by omega)
    rw [hbytes] at hlast
    obtain ⟨hparams, hresync, -, hlen, V, hV, hW⟩ := hlast
    rw [List.drop_left] at hW
    have hcap : V.length + len.toNat + 6 ≤ s.params.capacity := by
      rw [Nat.add_assoc, ← hF.size, ← List.length_append, ← hW]
      exact hlen.trans hroom'
    rw [← hparams] at hF hV hcap
    rw [execAll_append ht, execAll, exec_append]
    dsimp only
    rw [execAll, exec_scan_of_frame (hW.trans (List.append_nil _).symm) hF hV hcap, if_pos hvalid, if_pos hvalid]
    exact ⟨_, rfl, rfl, rfl, hresync, rfl⟩

end Sys2Proof.Machine
end

section
/-! PROOFS. The family 42_checksum_validator.md: `sum8` as a sum of bytes (R150), what `validate` accepts (R151), the round trip
(R153), and which changes of a valid frame it detects (R154, R155). -/

namespace Sys2Proof.Machine

/-! ### The sum of the bytes (R150) -/

theorem sum8_cons (b : Byte) (S : List Byte) : sum8 (b :: S) = b + sum8 S := rfl

/-- `sum8` is the library's sum in the ring of bytes, whose addition wraps modulo 256. -/
theorem sum8_eq_sum (S : List Byte) : sum8 S = S.sum := by
  induction S with
  | nil => rfl
  | cons b S ih => rw [sum8_cons, List.sum_cons, ih]

theorem sum8_toNat (S : List Byte) : (sum8 S).toNat = (S.map BitVec.toNat).sum % 256 := by
  induction S with
  | nil => rfl
  | cons b S ih =>
    rw [sum8_cons, BitVec.toNat_add, ih, List.map_cons, List.sum_cons]
    exact Nat.add_mod_mod _ _ _

theorem sum8_eq_of_perm {S T : List Byte} (h : S.Perm T) : sum8 S = sum8 T := by
  rw [sum8_eq_sum, sum8_eq_sum, h.sum_eq]

/-- Settles O38: the arithmetic sum by induction on the bytes, the other two claims from the library's sum. -/
theorem sum8IsTheSumModulo256 : Obligations.Sum8IsTheSumModulo256 :=
  ⟨sum8_toNat, fun _ _ => sum8_eq_of_perm, fun S => (sum8_eq_sum S).trans List.sum_eq_foldl⟩

/-- Replacing one byte keeps the sum only when the byte is replaced by itself: the difference of two bytes is 0 modulo 256 only for
equal bytes (R154). -/
theorem getElem?_of_sum8_set_eq {S : List Byte} {i : Nat} {b : Byte} (hi : i < S.length)
    (h : sum8 (S.set i b) = sum8 S) : S[i]? = some b := by
  induction S generalizing i with
  | nil => cases hi
  | cons c S ih =>
    cases i with
    | zero => exact congrArg some (add_right_cancel h).symm
    | succ i => exact ih (Nat.lt_of_succ_lt_succ hi) (add_left_cancel h)

/-! ### What `validate` accepts (R151) -/

/-- `validate` by positions: LENGTH gives the size, and CHECKSUM is the sum of its span. -/
theorem validate_eq_true_iff (F : List Byte) :
    validate F = true ↔ ∃ len, F[3]? = some len ∧ F.length = len.toNat + 6 ∧
      F[4 + len.toNat]? = some (sum8 (checksumSpan F len.toNat)) := by
  unfold validate
  split
  next hshort =>
    refine iff_of_false Bool.false_ne_true ?_
    rintro ⟨len, -, hsize, -⟩
    omega
  next =>
    cases F[3]? with
    | none => simp
    | some len => simp

/-- A layout of R70 validates exactly when LENGTH counts its payload and CHECKSUM is the sum of STATUS to the end of PAYLOAD. -/
theorem validate_layout_eq_true_iff (stx status packetType len csum etx : Byte) (payload : List Byte) :
    validate (stx :: status :: packetType :: len :: (payload ++ [csum, etx])) = true ↔
      payload.length = len.toNat ∧ csum = sum8 (status :: packetType :: len :: payload) := by
  have hlayout (h : payload.length = len.toNat) :
      validate (stx :: status :: packetType :: len :: (payload ++ [csum, etx])) = true ↔
        csum = sum8 (status :: packetType :: len :: payload) :=
    (Bool.eq_iff_iff.1 (validate_layout stx status packetType len csum etx payload h)).trans decide_eq_true_iff
  refine ⟨fun hvalid => ?_, fun ⟨hlen, hcsum⟩ => (hlayout hlen).2 hcsum⟩
  obtain ⟨len', hlen', hsize, -⟩ := (validate_eq_true_iff _).1 hvalid
  obtain rfl : len = len' := Option.some.inj hlen'
  have hlen : payload.length = len.toNat := by simpa using hsize
  exact ⟨hlen, (hlayout hlen).1 hvalid⟩

/-- Every sequence of at least 6 bytes has a layout of four bytes, a payload and two bytes. -/
theorem exists_layout {F : List Byte} (h : 6 ≤ F.length) :
    ∃ (stx status packetType len csum etx : Byte) (payload : List Byte),
      F = stx :: status :: packetType :: len :: (payload ++ [csum, etx]) := by
  match F, h with
  | stx :: status :: packetType :: len :: rest, h =>
    have hrest : (rest.drop (rest.length - 2)).length = 2 := by
      simp only [List.length_cons] at h
      rw [List.length_drop]
      omega
    obtain ⟨csum, etx, htail⟩ := List.length_eq_two.1 hrest
    exact ⟨stx, status, packetType, len, csum, etx, rest.take (rest.length - 2),
      by rw [← htail, List.take_append_drop]⟩

/-- Settles O39: a sequence that validates is long enough for a layout, and `validate_layout_eq_true_iff` says which layouts do. -/
theorem validateHoldsExactlyForGoodChecksums : Obligations.ValidateHoldsExactlyForGoodChecksums := by
  intro F
  constructor
  · intro hvalid
    obtain ⟨_, -, hsize, -⟩ := (validate_eq_true_iff F).1 hvalid
    obtain ⟨stx, status, packetType, len, csum, etx, payload, rfl⟩ := exists_layout (F := F) (by omega)
    exact ⟨stx, status, packetType, len, csum, etx, payload, rfl, (validate_layout_eq_true_iff ..).1 hvalid⟩
  · rintro ⟨stx, status, packetType, len, csum, etx, payload, rfl, hgood⟩
    exact (validate_layout_eq_true_iff ..).2 hgood

/-- Settles O40: LENGTH counts every payload of at most 255 bytes, and CHECKSUM is the sum by construction. -/
theorem checksumRoundTrip : Obligations.ChecksumRoundTrip := by
  intro stx etx status packetType payload hsize
  have hlen : payload.length = (BitVec.ofNat 8 payload.length).toNat := by
    rw [BitVec.toNat_ofNat, Nat.mod_eq_of_lt (Nat.lt_succ_of_le hsize)]
  exact (validate_layout_eq_true_iff ..).2 ⟨hlen, rfl⟩

/-! ### Changes of a valid frame (R154, R155) -/

/-- A change behind the span leaves the span as it is. -/
theorem checksumSpan_set_of_le {F : List Byte} {i L : Nat} (b : Byte) (h : 4 + L ≤ i) :
    checksumSpan (F.set i b) L = checksumSpan F L := by
  rw [checksumSpan, List.drop_set, if_neg (by omega), List.take_set_of_le (by omega), checksumSpan]

/-- A change of byte `i` of the sequence is a change of byte `i - 1` of the span. -/
theorem checksumSpan_set {F : List Byte} {i : Nat} (b : Byte) (L : Nat) (h : 1 ≤ i) :
    checksumSpan (F.set i b) L = (checksumSpan F L).set (i - 1) b := by
  rw [checksumSpan, List.drop_set, if_neg (Nat.not_lt_of_le h), List.take_set, checksumSpan]

/-- Settles O41: the size fixes LENGTH, so either one summed byte changes and CHECKSUM does not, or CHECKSUM alone changes. -/
theorem singleByteErrorIsDetected : Obligations.SingleByteErrorIsDetected := by
  intro F i b hvalid hfirst hlast hb
  rw [← Bool.not_eq_true]
  intro hvalid'
  obtain ⟨len, -, hsize, hcsum⟩ := (validate_eq_true_iff F).1 hvalid
  obtain ⟨len', -, hsize', hcsum'⟩ := (validate_eq_true_iff (F.set i b)).1 hvalid'
  obtain rfl : len = len' := BitVec.eq_of_toNat_eq (by rw [List.length_set] at hsize'; omega)
  refine hb ?_
  rcases lt_or_eq_of_le (show i ≤ 4 + len.toNat by omega) with hsummed | rfl
  · have hindex : i - 1 < (checksumSpan F len.toNat).length := by
      simp only [checksumSpan, List.length_take, List.length_drop]
      omega
    rw [List.getElem?_set_ne hsummed.ne, hcsum, checksumSpan_set b _ hfirst] at hcsum'
    have hbyte := getElem?_of_sum8_set_eq hindex (Option.some.inj hcsum').symm
    rwa [checksumSpan, List.getElem?_take_of_lt (by omega), List.getElem?_drop, Nat.add_sub_cancel' hfirst] at hbyte
  · rw [List.getElem?_set_self (by omega), checksumSpan_set_of_le b le_rfl] at hcsum'
    rw [hcsum, hcsum']

/-- LENGTH is a summand of its own beside STATUS, PACKET_TYPE and the payload. -/
theorem sum8_layout (status packetType len : Byte) (payload : List Byte) :
    sum8 (status :: packetType :: len :: payload) = len + sum8 (status :: packetType :: payload) :=
  sum8_eq_of_perm (List.perm_middle (l₁ := [status, packetType]))

/-- With LENGTH kept, bytes of the same number and the same sum validate with the same CHECKSUM. -/
theorem validate_of_sum8_eq {stx etx csum len st ty st' ty' : Byte} {P P' : List Byte}
    (hvalid : validate (stx :: st :: ty :: len :: (P ++ [csum, etx])) = true) (hsize : P'.length = P.length)
    (hsum : sum8 (st' :: ty' :: P') = sum8 (st :: ty :: P)) :
    validate (stx :: st' :: ty' :: len :: (P' ++ [csum, etx])) = true := by
  rw [validate_layout_eq_true_iff, sum8_layout] at hvalid ⊢
  rwa [hsize, hsum]

/-- Settles O42: a reordering keeps the number of bytes and, by R150, their sum. -/
theorem multiByteErrorsCanPass : Obligations.MultiByteErrorsCanPass := by
  refine ⟨fun _ _ _ _ _ _ _ _ _ _ => validate_of_sum8_eq, fun _ _ _ _ _ _ _ _ _ _ hvalid hperm => ?_⟩
  have hsize := hperm.length_eq
  simp only [List.length_cons, Nat.add_right_cancel_iff] at hsize
  exact validate_of_sum8_eq hvalid hsize (sum8_eq_of_perm hperm)

end Sys2Proof.Machine
end

section
/-! PROOFS. The family 43_frame_and_register_access.md: READF, RDREG and WRCTRL on the decoded command and on the whole word (R160, R161,
R163), and the registers that no step changes (R164). -/

namespace Sys2Proof.Machine

/-! ### READF (R160) -/

/-- READF of an index that exists answers OK with its byte and changes nothing else (R160). -/
theorem exec_readf_of_frameByte {i : Arg} {s : State} {b : Byte} (h : s.frameByte i.toNat = some b) :
    exec (.readf i) s = .next (s.respond .ok (byteData b)) := by
  simp [exec, execReadf, h]

theorem frameByte_of_lt {i : Nat} {s : State} {F : List Byte} (hF : s.frame = some F) (h : i < F.length) :
    s.frameByte i = some F[i] := by
  simp [State.frameByte, hF, h]

/-- Settles O43: an index inside the held frame has a byte, and for the others `frameByte_eq_none_iff` says that there is none. -/
theorem readfReadsTheHeldFrame : Obligations.ReadfReadsTheHeldFrame := by
  refine ⟨fun i s F h hF => ?_, fun i s h => ?_⟩
  · rw [exec_readf_of_frameByte (frameByte_of_lt hF h), respond_ok_byteData]
  · rw [exec_readf_of_none ((frameByte_eq_none_iff _ s).2 h), raiseError_outOfRange]

/-- Settles O44: past RSV the word is READF of its ARG. With no frame held no frame is longer than the index, so both OUT_OF_RANGE branches
are the second clause of O43. -/
theorem readfWordFollowsItsPseudocode : Obligations.ReadfWordFollowsItsPseudocode := by
  intro w s hop
  rw [runWord_of_op_arg (i := .readf (argField w)) s hop rfl, ← raiseError_illegalCmd]
  obtain ⟨hinside, houtside⟩ := readfReadsTheHeldFrame
  split
  next => rfl
  next =>
    by_cases hpast : ∀ F ∈ s.frame, F.length ≤ (argField w).toNat
    · rw [houtside _ s hpast, if_pos hpast, ite_self]
    · obtain ⟨F, hF, hlt⟩ : ∃ F, s.frame = some F ∧ (argField w).toNat < F.length := by
        simpa using hpast
      have hvalid : s.frameValid = true := by rw [State.frameValid, hF, Option.isSome_some]
      rw [hinside _ s F hlt hF, if_neg (by simp [hvalid]), if_neg hpast, hF, Option.bind_some,
        List.getElem?_eq_getElem hlt, Option.map_some]

/-! ### The register map (R161) -/

/-- RDREG of an implemented register, with its response word written out. -/
theorem exec_rdreg_answers {r : Arg} {s : State} {d : Data} {v : Word} (hd : s.readReg r = some d)
    (hv : rspWord .ok d = v) : exec (.rdreg r) s = .next { s with rsp := some v } := by
  rw [exec_rdreg_of_readReg hd, State.respond, hv]

/-- CTRL's response is RETAIN_LAST in bit 0 (R26, R66). -/
theorem rspWord_ok_ctrl : ∀ v : Bool, rspWord .ok ((BitVec.ofBool v).zeroExtend 28) = 0#31 ++ BitVec.ofBool v := by
  decide

/-- FRAME_INFO's response for a held frame: FRAME_VALID in bit 24 above STATUS, PACKET_TYPE and LENGTH (R30, R66). -/
theorem rspWord_ok_frameInfoOf (b0 b1 b2 b3 : Byte) (tl : List Byte) :
    rspWord .ok (frameInfoOf (b0 :: b1 :: b2 :: b3 :: tl)) = 0x0#4 ++ 0b0001#4 ++ b1 ++ b2 ++ b3 := by
  apply BitVec.eq_of_toNat_eq
  rw [rspWord_ok_toNat]
  simp only [frameInfoOf, BitVec.toNat_append]
  rfl

/-- Register 4 follows the held frame (R30). -/
theorem readReg_frameInfo (s : State) : s.readReg 4#16 = some (s.frame.elim 0#28 frameInfoOf) := by
  unfold State.readReg State.frameInfo
  cases s.frame <;> rfl

/-- Settles O45: each implemented register by its response word, the others by `exec_rdreg_of_six_le`, and the whole word by its RSV. -/
theorem rdregReadsTheRegisterMap : Obligations.RdregReadsTheRegisterMap := by
  intro s
  refine ⟨exec_rdreg_answers rfl rfl, exec_rdreg_answers rfl (rspWord_ok_capacity s.params.cap),
    exec_rdreg_answers rfl (rspWord_ok_capacity s.resyncCnt), exec_rdreg_answers rfl (rspWord_ok_ctrl s.retainLast),
    fun hF => ?_, fun b0 b1 b2 b3 tl hF => ?_, exec_rdreg_answers rfl (rspWord_ok_const s.params), fun r hr => ?_,
    fun w hop => ?_⟩
  · have hinfo : s.readReg 4#16 = some 0#28 := by rw [readReg_frameInfo, hF, Option.elim_none]
    exact exec_rdreg_answers hinfo rspWord_ok_zero
  · have hinfo : s.readReg 4#16 = some (frameInfoOf (b0 :: b1 :: b2 :: b3 :: tl)) := by
      rw [readReg_frameInfo, hF, Option.elim_some]
    exact exec_rdreg_answers hinfo (rspWord_ok_frameInfoOf b0 b1 b2 b3 tl)
  · rw [exec_rdreg_of_six_le s hr, raiseError_illegalCmd]
  · have hword := runWord_of_op_arg (i := .rdreg (argField w)) s hop rfl
    refine ⟨fun hrsv => ?_, fun hrsv => ?_⟩
    · rw [hword, if_pos hrsv, raiseError_illegalCmd]
    · rw [hword, if_neg (not_not.2 hrsv)]

/-! ### WRCTRL (R163) -/

theorem exec_wrctrl (v : Bool) (s : State) : exec (.wrctrl v) s = .next ((s.setRetain v).respond .ok 0#28) := rfl

/-- Settles O47: OK with no data is the zero word. -/
theorem wrctrlSetsRetainLast : Obligations.WrctrlSetsRetainLast := by
  intro v s
  rw [exec_wrctrl, State.respond, rspWord_ok_zero]
  rfl

/-- Settles O48: nonzero reserved ARG bits make the word illegal, and with none of them ARG is RETAIN_LAST, so RSV alone decides. -/
theorem wrctrlWordFollowsItsPseudocode : Obligations.WrctrlWordFollowsItsPseudocode := by
  intro w s hop
  rw [← raiseError_illegalCmd]
  by_cases hres : w.extractLsb' 1 15 = 0#15
  · have harg : argField w = (Instr.wrctrl (w.getLsbD 0)).arg := by
      rwa [← extractLsb'_argField w (by decide), arg_eq_bit_iff, getLsbD_zero_argField] at hres
    rw [runWord_of_op_arg s hop harg, wrctrlSetsRetainLast]
    simp only [hres, ne_eq, not_true_eq_false, or_false]
    split <;> rfl
  · rw [if_pos (.inr hres)]
    exact runWord_of_illegal s (.inr (.inr (.inr (.inr (.inr ⟨hop, hres⟩)))))

/-! ### The constants (R164) -/

@[simp] theorem State.awaitDelivery_params (s : State) : s.awaitDelivery.params = s.params := by
  rcases awaitDelivery_cases s with ⟨r, -, -, h⟩ | ⟨-, h⟩ <;> simp [h]

/-- No edge writes a parameter, whether it resets, delivers, holds or runs a command (R20, R164). -/
theorem step_params {s t : State} (h : step s = .next t) : t.params = s.params := by
  rcases step_cases s with ⟨-, hs⟩ | ⟨-, -, hs⟩ | ⟨-, -, -, hs⟩ | ⟨w, rest, -, -, -, hs⟩ <;> rw [hs] at h
  · cases h
    exact State.resetEdge_params s
  · cases h
    exact State.awaitDelivery_params s
  · cases h
    rfl
  · exact (runWord_params h).trans (State.accept_params w rest s)

/-- CAPACITY is a function of the parameters alone (R28). -/
theorem readReg_capacity (s : State) : s.readReg 1#16 = some (s.params.cap.zeroExtend 28) := rfl

/-- CONST is a function of the parameters alone (R31). -/
theorem readReg_const (s : State) : s.readReg 5#16 = some (constData s.params) := rfl

/-- Settles O53: CAPACITY and CONST are read from the parameters, which `step_params` keeps. -/
theorem constantsReadTheSameInEveryState : Obligations.ConstantsReadTheSameInEveryState := by
  intro s t h
  have hparams := step_params h
  refine ⟨hparams, ?_, ?_⟩
  · rw [readReg_capacity, readReg_capacity, hparams]
  · rw [readReg_const, readReg_const, hparams]

end Sys2Proof.Machine
end

section
/-! PROOFS. The family 60_exceptions.md: every step answers (R183, R184), which words are answered ILLEGAL_CMD (R183), what an error leaves
unchanged (R184), and the order of the decoder's checks (R185). -/

namespace Sys2Proof.Machine

/-! ### Every step answers -/

/-- Settles O14: of the four things a step can do, only running a word is more than a written-out next state, and `runWord_answers` gives
that one. -/
theorem stepAlwaysAnswersNext : Obligations.StepAlwaysAnswersNext := by
  intro s
  rcases step_cases s with ⟨-, hs⟩ | ⟨-, -, hs⟩ | ⟨-, -, -, hs⟩ | ⟨w, rest, -, -, -, hs⟩
  · exact ⟨_, hs⟩
  · exact ⟨_, hs⟩
  · exact ⟨_, hs⟩
  · obtain ⟨t, -, ht, -⟩ := runWord_answers w (s.accept w rest)
    exact ⟨t, hs.trans ht⟩

/-! ### The words that answer ILLEGAL_CMD (R183) -/

/-- RDREG of 6..65535 answers ILLEGAL_CMD, also when the word is illegal besides. -/
theorem runWord_of_unimplemented_reg {w : Word} (s : State) (hop : opField w = 6#4) (hr : 6 ≤ (argField w).toNat) :
    runWord w s = .next (s.raiseError .illegalCmd) := by
  by_cases hw : IllegalEncoding w
  · exact runWord_of_illegal s hw
  · rw [runWord_of_fields (i := .rdreg (argField w)) s hw hop rfl, exec_rdreg_of_six_le s hr]

/-- Settles O6: the row of R67's table with code 2 says which words can answer it, and each of these does. -/
theorem illegalCmdOnlyForIllegalWords : Obligations.IllegalCmdOnlyForIllegalWords := by
  intro w s t h
  constructor
  · intro hrc
    obtain ⟨r, hrsp, hrow⟩ := resultCodesArePerCommand w s t h
    have hr : rcField r = 2#4 := by simpa [hrsp] using hrc
    rcases hrow with ⟨h0, -⟩ | ⟨h1, -⟩ | ⟨-, hw⟩ | ⟨h345, -⟩
    · simp [hr] at h0
    · simp [hr] at h1
    · exact hw
    · simp [hr] at h345
  · intro hw
    have hrun : runWord w s = .next (s.raiseError .illegalCmd) := by
      rcases hw with hill | ⟨hop, hr⟩
      · exact runWord_of_illegal s hill
      · exact runWord_of_unimplemented_reg s hop hr
    rw [hrun] at h
    cases h
    exact congrArg some (rcField_rspWord .illegalCmd 0#28)

/-! ### No command reads the response that is pending -/

/-- Extraction answers in both of its cases (R128..R130). -/
@[simp] theorem State.extract_respond (rc : ResultCode) (d : Data) (start len : Nat) (s : State) :
    (s.respond rc d).extract start len = s.extract start len := by
  rcases extract_cases start len s with ⟨hv, -⟩ | ⟨hv, -⟩ <;> simp only [State.extract, State.respond_window, hv] <;> rfl

/-- SCAN's loop ends by answering, so a response that was there before is lost (R120). -/
theorem scanLoop_respond (rc : ResultCode) (d : Data) (fuel : Nat) (s : State) :
    scanLoop fuel (s.respond rc d) = scanLoop fuel s := by
  induction fuel generalizing s with
  | zero => rfl
  | succ fuel ih =>
    have hresync : ∀ start, (s.respond rc d).resync start = (s.resync start).respond rc d := fun _ => rfl
    rcases scanPass_cases s.params s.window with ⟨hp, -⟩ | ⟨hp | hp, -⟩ | ⟨start, hp, -⟩ | ⟨start, len, -, hp, -⟩
    · simp only [scanLoop, State.respond_params, State.respond_window, hp]
      rfl
    · simp only [scanLoop, State.respond_params, State.respond_window, hp, State.respond_respond]
    · simp only [scanLoop, State.respond_params, State.respond_window, hp, State.respond_respond]
    · rw [scanLoop_spurious fuel start s hp, scanLoop_spurious fuel start (s.respond rc d) hp, hresync, ih]
    · simp only [scanLoop, State.respond_params, State.respond_window, hp, State.extract_respond]

theorem exec_respond (i : Instr) (rc : ResultCode) (d : Data) (s : State) : exec i (s.respond rc d) = exec i s := by
  cases i with
  | append b => rfl
  | scan => exact congrArg Host.Outcome.next (scanLoop_respond rc d (s.window.length + 1) s.clearFrame)
  | peek off => exact exec_peek_respond off rc d s
  | consume n =>
    by_cases hn : n.toNat ≤ s.window.length
    · rw [exec_consume_of_le hn, exec_consume_of_le (s := s.respond rc d) hn]
      rfl
    · have hlt := Nat.lt_of_not_le hn
      rw [exec_consume_of_lt hlt, exec_consume_of_lt (s := s.respond rc d) hlt]
      rfl
  | readf k => exact exec_readf_respond k rc d s
  | rdreg r => exact exec_rdreg_respond r rc d s
  | wrctrl v => rfl

/-- The same for any word, legal or not. -/
theorem runWord_respond (w : Word) (rc : ResultCode) (d : Data) (s : State) :
    runWord w (s.respond rc d) = runWord w s := by
  by_cases hw : IllegalEncoding w
  · rw [runWord_of_illegal s hw, runWord_of_illegal (s.respond rc d) hw]
    rfl
  · obtain ⟨i, hi⟩ := decode_of_legal hw
    rw [runWord_of_decode s hi, runWord_of_decode (s.respond rc d) hi, exec_respond]

/-! ### What an error does (R184) -/

/-- The response words that R184 calls errors: OUT_OF_RANGE and ILLEGAL_CMD. -/
def IsErrorRsp (r : Word) : Prop := rcField r = 1#4 ∨ rcField r = 2#4

theorem not_isErrorRsp_of_code {rc : ResultCode} (d : Data) (h1 : rc ≠ .outOfRange) (h2 : rc ≠ .illegalCmd) :
    ¬ IsErrorRsp (rspWord rc d) := by
  rw [IsErrorRsp, rcField_rspWord]
  cases rc with
  | outOfRange => exact absurd rfl h1
  | illegalCmd => exact absurd rfl h2
  | _ => decide

/-- A command raises an error and does nothing else, or answers with a response that is no error. -/
theorem exec_raises_or_succeeds (i : Instr) (s : State) :
    (∃ e, exec i s = .next (s.raiseError e)) ∨ ∃ t r, exec i s = .next t ∧ t.rsp = some r ∧ ¬ IsErrorRsp r := by
  have hok : ∀ d, ¬ IsErrorRsp (rspWord .ok d) := fun d => not_isErrorRsp_of_code d (by decide) (by decide)
  cases i with
  | append b => exact .inr ⟨_, _, exec_append b s, rfl, hok _⟩
  | wrctrl v => exact .inr ⟨_, _, exec_wrctrl v s, rfl, hok _⟩
  | scan =>
    obtain ⟨t, rc, d, ht, hrsp, hrc⟩ := exec_answers .scan s
    refine .inr ⟨t, _, ht, hrsp, not_isErrorRsp_of_code d ?_ ?_⟩ <;> rintro rfl <;> simp [resultCodes] at hrc
  | peek off =>
    cases hb : s.windowByte off.toNat with
    | some b => exact .inr ⟨_, _, exec_peek_of_windowByte hb, rfl, hok _⟩
    | none => exact .inl ⟨_, exec_peek_of_le ((windowByte_eq_none_iff _ s).1 hb)⟩
  | consume n =>
    by_cases hn : n.toNat ≤ s.window.length
    · exact .inr ⟨_, _, exec_consume_of_le hn, rfl, hok _⟩
    · exact .inl ⟨_, exec_consume_of_lt (Nat.lt_of_not_le hn)⟩
  | readf k =>
    cases hb : s.frameByte k.toNat with
    | some b => exact .inr ⟨_, _, exec_readf_of_frameByte hb, rfl, hok _⟩
    | none => exact .inl ⟨_, exec_readf_of_none hb⟩
  | rdreg r =>
    by_cases hr : 6 ≤ r.toNat
    · exact .inl ⟨_, exec_rdreg_of_six_le s hr⟩
    · obtain ⟨d, hd⟩ := readReg_of_lt_six s (Nat.lt_of_not_le hr)
      exact .inr ⟨_, _, exec_rdreg_of_readReg hd, rfl, hok d⟩

/-- An error response is left by `raiseError` alone, whatever the word. -/
theorem eq_raiseError_of_isErrorRsp {w : Word} {s t : State} {r : Word} (h : runWord w s = .next t) (hrsp : t.rsp = some r)
    (herr : IsErrorRsp r) : ∃ e, t = s.raiseError e := by
  rcases runWord_cases w s with ⟨i, -, hr⟩ | ⟨_, -, hr⟩ <;> rw [hr] at h
  · rcases exec_raises_or_succeeds i s with ⟨e, he⟩ | ⟨u, r', hu, hursp, hno⟩
    · rw [he] at h
      cases h
      exact ⟨e, rfl⟩
    · rw [hu] at h
      cases h
      rw [hursp] at hrsp
      cases hrsp
      exact absurd herr hno
  · cases h
    exact ⟨.illegalCmd, rfl⟩

/-- Settles O50: an error is `raiseError`, which only answers, and no later word sees that answer (`runWord_respond`). -/
theorem errorsChangeNothing : Obligations.ErrorsChangeNothing := by
  intro w s t r h hrsp herr
  obtain ⟨e, rfl⟩ := eq_raiseError_of_isErrorRsp h hrsp herr
  obtain rfl : rspWord e 0#28 = r := by simpa using hrsp
  exact ⟨dataField_rspWord e 0#28, rfl, fun hrst => (cmdReady_iff _).2 ⟨hrst, rfl⟩, fun w' => runWord_respond w' e 0#28 s⟩

/-! ### The order of the decoder's checks (R185) -/

/-- The opcodes that are no row of R63 are those that R64 reserves. -/
theorem opcodeAssigned_eq_false_iff :
    ∀ op : BitVec 4, opcodeAssigned op.toNat = false ↔ op = 0#4 ∨ 8#4 ≤ op := by
  decide

theorem decode_of_reserved_opcode {w : Word} (h : opField w = 0#4 ∨ 8#4 ≤ opField w) :
    decode w = .error .reservedOpcode := by
  simp [decode, (opcodeAssigned_eq_false_iff _).2 h]

theorem decode_of_nonzero_rsv {w : Word} (hop : ¬ (opField w = 0#4 ∨ 8#4 ≤ opField w)) (hrsv : rsvField w ≠ 0#12) :
    decode w = .error .nonzeroRsv := by
  have hassigned : opcodeAssigned (opField w).toNat = true := by
    rw [← Bool.not_eq_false, opcodeAssigned_eq_false_iff]
    exact hop
  simp [decode, hassigned, hrsv]

/-- A word whose only defect is in ARG is refused for it: by R64 it is an APPEND, a SCAN or a WRCTRL with a reserved bit set. -/
theorem decode_of_nonzero_reservedArg {w : Word} (hop : ¬ (opField w = 0#4 ∨ 8#4 ≤ opField w)) (hrsv : rsvField w = 0#12)
    (h : IllegalEncoding w) : decode w = .error .nonzeroReservedArg := by
  rw [illegalEncoding_iff_fields] at h
  rw [decode_of_rsv hrsv]
  rcases h with h0 | h8 | hne | ⟨ho, ha⟩ | ⟨ho, ha⟩ | ⟨ho, ha⟩
  · exact absurd (.inl h0) hop
  · exact absurd (.inr h8) hop
  · exact absurd hrsv hne
  all_goals simp [decodeArg, ho, ha]

/-- Settles O7, one lemma of the decoder for each kind of defect. -/
theorem decodeErrorPriority : Obligations.DecodeErrorPriority :=
  fun _ => ⟨decode_of_reserved_opcode, decode_of_nonzero_rsv, decode_of_nonzero_reservedArg⟩

end Sys2Proof.Machine
end

section
/-! PROOFS. The family 70_reset_and_hazards.md: the reset edge (R200, R202), the controller's discipline for appending without loss (R207),
and the delivery of every response to a controller that is ready again and again (R212). -/

namespace Sys2Proof.Machine

/-! ### The reset edge (R200, R202) -/

/-- `rst` wins over everything else that could move at an edge (R200). -/
theorem step_of_rst {s : State} (h : s.rst = true) : step s = .next s.resetEdge := by
  simp [step, h]

theorem cmdReady_of_rst {s : State} (h : s.rst = true) : s.cmdReady = false := by
  simp [State.cmdReady, h]

theorem rspValid_of_rst {s : State} (h : s.rst = true) : s.rspValid = false := by
  simp [State.rspValid, h]

/-- Settles O12: the edge is `resetEdge`, whose fields are the reset values. -/
theorem resetEdgeGivesResetState : Obligations.ResetEdgeGivesResetState :=
  fun _ h => ⟨cmdReady_of_rst h, rspValid_of_rst h, _, step_of_rst h, rfl, rfl, rfl, rfl, rfl, rfl, rfl, rfl, rfl⟩

/-- A command writes nothing at the ports (R20, R61). -/
theorem exec_keeps_ports {i : Instr} {s t : State} (h : exec i s = .next t) : t.withPortsOf s = t := by
  have hself : exec i s = .next (t.withPortsOf s) := exec_withPortsOf s h
  rw [h, Host.Outcome.next.injEq] at hself
  exact hself.symm

/-- A reset edge keeps only the parameters and the controller's inputs, so states that agree on those become one (R202). -/
theorem resetEdge_eq_of_inputs_eq {s t : State} (hparams : t.params = s.params) (hrst : t.rst = s.rst)
    (hcmdIn : t.cmdIn = s.cmdIn) (hready : t.rspReady = s.rspReady) : t.resetEdge = s.resetEdge := by
  simp only [State.resetEdge, hparams, hrst, hcmdIn, hready]

/-- Settles O13: a command changes neither the parameters (`exec_params`) nor the controller's inputs (`exec_keeps_ports`), which are all
that a reset edge keeps. -/
theorem resetHidesTheCommandInFlight : Obligations.ResetHidesTheCommandInFlight := by
  intro i s t h
  have hparams : t.params = s.params := exec_params h
  have hports : t.withPortsOf s = t := exec_keeps_ports h
  have hcmdIn : t.cmdIn = s.cmdIn := (congrArg State.cmdIn hports).symm
  have hready : t.rspReady = s.rspReady := (congrArg State.rspReady hports).symm
  have hsame : ({ t with rst := true } : State).resetEdge = ({ s with rst := true } : State).resetEdge :=
    resetEdge_eq_of_inputs_eq hparams rfl hcmdIn hready
  exact ⟨_, step_of_rst rfl, (step_of_rst rfl).trans (congrArg Host.Outcome.next hsame), rfl, rfl, rfl, rfl, rfl, rfl⟩

/-! ### Appending within the capacity (R207) -/

/-- Settles O23, by induction on the bytes: while there is room WinAppend evicts nothing, and each byte takes one place of the room. -/
theorem appendsWithinCapacityLoseNothing : Obligations.AppendsWithinCapacityLoseNothing := by
  intro bs
  induction bs with
  | nil => exact fun s _ => ⟨s, rfl, (List.append_nil _).symm⟩
  | cons b bs ih =>
    intro s hroom
    rw [List.length_cons] at hroom
    have hpush : (s.winAppend b).window = s.window ++ [b] := windowPush_of_lt _ b _ (by omega)
    have hrest : (s.winAppend b).window.length + bs.length ≤ s.params.capacity := by
      rw [hpush, List.length_append, List.length_singleton]
      omega
    obtain ⟨t, hrun, hwindow⟩ := ih ((s.winAppend b).respond .ok 0#28) hrest
    refine ⟨t, hrun, ?_⟩
    rw [hwindow, State.respond_window, hpush, List.append_assoc, List.singleton_append]

/-! ### One word under a controller that stalls (R61, R212) -/

/-- Whether the controller takes responses has no part in what a word does. -/
theorem runWord_driveRspReady (q : Bool) {w : Word} {s t : State} (h : runWord w s = .next t) :
    runWord w (s.driveRspReady q) = .next (t.driveRspReady q) := by
  have hports : t.withPortsOf (s.driveRspReady q) = t.driveRspReady q :=
    congrArg (State.driveRspReady q) (runWord_keeps_ports h)
  rw [← hports]
  exact runWord_withPortsOf (s.driveRspReady q) h

/-- The edge that accepts a word, at whatever level `rsp_ready` is. -/
theorem edgeWith_accepts (q : Bool) {s u : State} {w : Word} {rest : List Word} (hr : s.cmdReady = true)
    (hc : s.cmdIn = w :: rest) (hu : runWord w (s.accept w rest) = .next u) :
    edgeWith q s = .next (u.driveRspReady q) :=
  (step_accepts (s := s.driveRspReady q) hr hc).trans (runWord_driveRspReady q hu)

/-- The first edge after acceptance at which `rsp_ready` is high delivers the response of the word's own run, and no earlier edge
delivers anything. -/
theorem runEdges_delivers_offered_word {ready : Nat → Bool} {s u : State} {w r : Word} {rest : List Word}
    (hr : s.cmdReady = true) (hc : s.cmdIn = w :: rest) (hm : ∃ m, 1 ≤ m ∧ ready m = true)
    (hu : runWord w (s.accept w rest) = .next u) (hrsp : u.rsp = some r) :
    ∃ n, runEdges ready n s = .next ((u.driveRspReady true).deliver r) ∧
      ∀ k, k < n → ∃ v, runEdges ready k s = .next v ∧ v.rspOut = s.rspOut := by
  obtain ⟨hrst, -⟩ := (cmdReady_iff s).1 hr
  have hports : u.withPortsOf (s.accept w rest) = u := runWord_keeps_ports hu
  have hurst : u.rst = false := (congrArg State.rst hports).symm.trans hrst
  have huf : u.inFlight.isSome = true := congrArg (fun x => x.inFlight.isSome) hports.symm
  have huout : u.rspOut = s.rspOut := (congrArg State.rspOut hports).symm
  have haccept : runEdges ready 1 s = .next (u.driveRspReady (ready 0)) := edgeWith_accepts (ready 0) hr hc hu
  have hlater : ∃ k, ready (1 + k) = true := by
    obtain ⟨m, hm1, hready⟩ := hm
    exact ⟨m - 1, by rwa [Nat.add_sub_cancel' hm1]⟩
  have hlow : ∀ j, j < Nat.find hlater → ready (1 + j) = false := fun j hj =>
    Bool.eq_false_of_not_eq_true (Nat.find_min hlater hj)
  refine ⟨1 + (Nat.find hlater + 1), ?_, fun k hk => ?_⟩
  · obtain ⟨-, hdeliver⟩ := pendingResponseSurvivesAnyStall (fun k => ready (1 + k)) (u.driveRspReady (ready 0)) r
      (Nat.find hlater) hurst huf hrsp (Nat.find_spec hlater) hlow
    exact (runEdges_add ready 1 _ haccept).trans hdeliver
  · rcases Nat.eq_zero_or_pos k with rfl | hpos
    · exact ⟨s, rfl, rfl⟩
    · obtain ⟨j, rfl⟩ := Nat.exists_eq_add_of_le hpos
      obtain ⟨q, hq⟩ := runEdges_stalled (ready := fun k => ready (1 + k)) (n := j) (s := u.driveRspReady (ready 0))
        hurst huf fun i hi => hlow i (by omega)
      exact ⟨_, (runEdges_add ready 1 j haccept).trans hq, huout⟩

/-- Settles O58: `runEdges_delivers_offered_word`, with `runWord_accept` for what acceptance leaves at the ports. -/
theorem acceptedCommandIsAnsweredOnceRspReadyRises : Obligations.AcceptedCommandIsAnsweredOnceRspReadyRises := by
  intro ready s w rest hr hc hm
  obtain ⟨hrst, -⟩ := (cmdReady_iff s).1 hr
  obtain ⟨u, r, hu, hrsp, -, hcmdIn, hseq, hout, hurst, -, -⟩ := runWord_accept w rest s
  obtain ⟨n, hn, hbefore⟩ := runEdges_delivers_offered_word hr hc hm hu hrsp
  have hready : ((u.driveRspReady true).deliver r).cmdReady = true := (cmdReady_iff _).2 ⟨hurst.trans hrst, rfl⟩
  exact ⟨u, _, r, n, hu, hrsp, hn, congrArg (· ++ [r]) hout, hready, hcmdIn, hseq, hbefore⟩

/-! ### The responses to a stream of words (R77) -/

theorem answers_cons {w r : Word} {s t : State} (ws : List Word) (ht : runWord w s = .next t) (hrsp : t.rsp = some r) :
    answers (w :: ws) s = r :: answers ws t := by
  rw [answers, ht]
  simp [hrsp]

theorem answers_length (ws : List Word) (s : State) : (answers ws s).length = ws.length := by
  induction ws generalizing s with
  | nil => rfl
  | cons w ws ih =>
    obtain ⟨t, r, ht, hrsp⟩ := runWord_answers w s
    rw [answers_cons ws ht hrsp, List.length_cons, List.length_cons, ih]

/-- No response depends on what stands at the ports. -/
theorem answers_withPortsOf (p : State) (ws : List Word) (s : State) : answers ws (s.withPortsOf p) = answers ws s := by
  induction ws generalizing s with
  | nil => rfl
  | cons w ws ih =>
    obtain ⟨t, r, ht, hrsp⟩ := runWord_answers w s
    rw [answers_cons ws ht hrsp, answers_cons ws (runWord_withPortsOf p ht) hrsp, ih]

/-- No response depends on the one before it, by `runWord_respond`. -/
theorem answers_respond (rc : ResultCode) (d : Data) (ws : List Word) (s : State) :
    answers ws (s.respond rc d) = answers ws s := by
  cases ws with
  | nil => rfl
  | cons w ws => rw [answers, answers, runWord_respond]

/-- Taking a response changes none of the later ones: once another response stands in its place, only the ports tell the two states
apart. -/
theorem answers_deliver (q : Bool) (r : Word) (ws : List Word) (s : State) :
    answers ws ((s.driveRspReady q).deliver r) = answers ws s :=
  calc answers ws ((s.driveRspReady q).deliver r)
      = answers ws (((s.driveRspReady q).deliver r).respond .ok 0#28) := (answers_respond _ _ _ _).symm
    _ = answers ws ((s.respond .ok 0#28).withPortsOf ((s.driveRspReady q).deliver r)) := rfl
    _ = answers ws s := (answers_withPortsOf _ _ _).trans (answers_respond _ _ _ _)

/-- The responses to a stream are that of its first word, accepted, and those to the rest of the stream once it is delivered. -/
theorem answers_cons_of_accept {w r : Word} {s u : State} {ws : List Word} (q : Bool)
    (hu : runWord w (s.accept w ws) = .next u) (hrsp : u.rsp = some r) :
    answers (w :: ws) s = r :: answers ws ((u.driveRspReady q).deliver r) := by
  rw [answers_deliver, ← answers_cons ws hu hrsp]
  exact (answers_withPortsOf (s.accept w ws) (w :: ws) s).symm

/-! ### A stream of words under a fair controller (R212) -/

/-- A fair controller is fair from any edge on. -/
theorem Fair.shift {ready : Nat → Bool} (h : Fair ready) (n : Nat) : Fair fun k => ready (n + k) := by
  intro k
  obtain ⟨m, hm, hready⟩ := h (n + k)
  have hnm : n + (m - n) = m := by omega
  exact ⟨m - n, by omega, (congrArg ready hnm).trans hready⟩

/-- Settles O60, by induction on the words: fairness gives the high edge at which the first word's response is delivered, and from there
on the controller is still fair. -/
theorem fairControllerGetsEveryResponseInOrder : Obligations.FairControllerGetsEveryResponseInOrder := by
  intro ready ws
  induction ws generalizing ready with
  | nil => exact fun s _ hr hc => ⟨0, s, rfl, (List.append_nil _).symm, rfl, hc, rfl, hr⟩
  | cons w ws ih =>
    intro s hfair hr hc
    obtain ⟨hrst, -⟩ := (cmdReady_iff s).1 hr
    obtain ⟨u, r, hu, hrsp, -, hcmdIn, hseq, hout, hurst, -, -⟩ := runWord_accept w ws s
    obtain ⟨n, hn, -⟩ := runEdges_delivers_offered_word hr hc (hfair 1) hu hrsp
    have hready : ((u.driveRspReady true).deliver r).cmdReady = true := (cmdReady_iff _).2 ⟨hurst.trans hrst, rfl⟩
    obtain ⟨n', t, hrun, htout, -, htcmdIn, htseq, htready⟩ := ih _ _ (Fair.shift hfair n) hready hcmdIn
    refine ⟨n + n', t, (runEdges_add ready n n' hn).trans hrun, ?_, answers_length _ s, htcmdIn, ?_, htready⟩
    · rw [htout, answers_cons_of_accept true hu hrsp]
      simp [hout]
    · simp only [htseq, State.deliver_seqIndex, State.driveRspReady_seqIndex, hseq, List.length_cons]
      omega

end Sys2Proof.Machine
end
